-- ==== Sys2Proof/Word.lean ====
section
/-! DEFINITION. The plain words of the machine: a byte of buffer memory, a 32-bit host-visible register, a 64-bit operand
(spec/10_state.md R20, spec/20_memory.md R50, spec/30_encoding.md R77). Every value is unsigned and every operator
wraps (spec/00_scope.md R9), which is what `BitVec` gives. -/

namespace Sys2Proof

/-- One byte of buffer memory (R50: the unit of buffer memory is the byte). -/
abbrev Byte := BitVec 8

/-- One host-visible register, and one command word (R20, R70). -/
abbrev Word := BitVec 32

/-- One 64-bit operand: an address or a byte count (R8: `ADDR_W` = `LEN_W` = 64). -/
abbrev DWord := BitVec 64

end Sys2Proof
end

