-- ==== Sys2Proof/Config.lean ====
section
/-! DEFINITION. What is fixed for the machine: the two algorithm instances and their sizes (spec/00_scope.md R2), the
parameters an implementation chooses (R8), and the free values the spec leaves open (spec/70_reset_and_hazards.md R252,
R253, R257, R258). A free value is an `opaque` constant with no body: no proof can see what it is, so whatever is proved
holds for every value of it. -/

namespace Sys2Proof

/-- The two algorithm instances (R2). -/
inductive Alg
  | sha256
  | sha512
  deriving DecidableEq, Repr

/-- Word width in bits, `w` (R2). -/
abbrev Alg.w : Alg → Nat
  | .sha256 => 32
  | .sha512 => 64

/-- Block size in bytes, `B` (R2). -/
abbrev Alg.blockSize : Alg → Nat
  | .sha256 => 64
  | .sha512 => 128

/-- Rounds and message-schedule words, `R` (R2, spec/40_compression.md R122). -/
abbrev Alg.rounds : Alg → Nat
  | .sha256 => 64
  | .sha512 => 80

/-- Digest size in bytes, `D` (R2, spec/30_encoding.md R72). -/
abbrev Alg.digestSize : Alg → Nat
  | .sha256 => 32
  | .sha512 => 64

/-- Length-field size in bytes, `L` (R2). -/
abbrev Alg.lengthSize : Alg → Nat
  | .sha256 => 8
  | .sha512 => 16

/-- Bit-counter width in bits, `CW` (R2). -/
abbrev Alg.counterWidth : Alg → Nat
  | .sha256 => 64
  | .sha512 => 128

/-- A block is not empty: what lets `bufLen` be a number below the block size (R35). -/
theorem Alg.blockSize_pos : (alg : Alg) → 0 < alg.blockSize
  | .sha256 => by decide
  | .sha512 => by decide

/-- The parameters R8 leaves OPEN to an implementation. A machine is reset for one choice of them
(`Machine.State.resetWith`); no step changes them. -/
structure Params where
  /-- `N_CTX256`, 1 to 16 (decision D4). -/
  nCtx256 : Nat
  /-- `N_CTX512`, 1 to 16 (decision D4). -/
  nCtx512 : Nat
  /-- `MEM_SIZE`, 1 to 2^64 (decision D6). -/
  memSize : Nat
  /-- `REG_BASE`, the platform address of the register window (decision D3). -/
  regBase : Nat
  deriving DecidableEq, Repr

/-- The ranges R8 gives the parameters. -/
abbrev Params.wf (p : Params) : Prop :=
  (1 ≤ p.nCtx256 ∧ p.nCtx256 ≤ 16) ∧ (1 ≤ p.nCtx512 ∧ p.nCtx512 ≤ 16) ∧ (1 ≤ p.memSize ∧ p.memSize ≤ 2 ^ 64)

namespace Config

/-- The parameters `State.reset` is given (log entry 1, DESIGN CHOICE): those of spec/95_test_vectors.md, and window base 0. -/
def params : Params := { nCtx256 := 4, nCtx512 := 4, memSize := 0x10000, regBase := 0 }

/-- FREE VALUE (log entry 2): what buffer memory holds at power-on, byte by byte (R252: "A model takes every byte as any
value"). -/
opaque powerOnByte : Nat → Byte

/-- FREE VALUE (log entry 3): the byte at an address that a command takes from a raced input, or that an abandoned command leaves
in its output, by the index `State.draws` of the command (R253, R257). -/
opaque freeByte : Nat → Nat → Byte

/-- FREE VALUE (log entry 3): whether a raced byte of a command's output ends as the host's value, by the index `State.draws` of the
command and its address (R258). -/
opaque freeBit : Nat → Nat → Bool

/-- FREE VALUE (log entry 3): whether a host load of a byte of a pending command's output range returns the byte's final value, by the
index `State.coins` of the load and its address (R258). -/
opaque freeChoice : Nat → Nat → Bool

end Config

end Sys2Proof
end

