-- ==== Sys2Proof/Syntax.lean ====
section
/-! DEFINITION. The instruction set: one constructor for each row of spec/opcode_table.json (spec/30_encoding.md R71,
R86). A constructor's arguments are the row's fields: `ctx` is CTX, and `pa`, `pb`, `pc` are the presence bits PA, PB
and PC (R73, R74). The operands `A`, `B` and `LEN` are not in the word: they are latched from registers (R77). -/

namespace Sys2Proof

/-- The twelve command forms. -/
inductive Instr
  | init256 (ctx : Nat) (pc : Bool)
  | init512 (ctx : Nat) (pc : Bool)
  | update256 (ctx : Nat) (pa pc : Bool)
  | update512 (ctx : Nat) (pa pc : Bool)
  | final256 (ctx : Nat) (pb pc : Bool)
  | final512 (ctx : Nat) (pb pc : Bool)
  | oneshot256 (pa pb : Bool)
  | oneshot512 (pa pb : Bool)
  | tohex256 (pa pb : Bool)
  | tohex512 (pa pb : Bool)
  | ctcmp256 (pa pb : Bool)
  | ctcmp512 (pa pb : Bool)
  deriving DecidableEq, Repr

namespace Instr

/-- `INIT.alg` (R72: ALG selects the algorithm). -/
def init : Alg → Nat → Bool → Instr
  | .sha256 => .init256
  | .sha512 => .init512

/-- `UPDATE.alg`. -/
def update : Alg → Nat → Bool → Bool → Instr
  | .sha256 => .update256
  | .sha512 => .update512

/-- `FINAL.alg`. -/
def final : Alg → Nat → Bool → Bool → Instr
  | .sha256 => .final256
  | .sha512 => .final512

/-- `ONESHOT.alg`. -/
def oneshot : Alg → Bool → Bool → Instr
  | .sha256 => .oneshot256
  | .sha512 => .oneshot512

/-- `TOHEX.alg`. -/
def tohex : Alg → Bool → Bool → Instr
  | .sha256 => .tohex256
  | .sha512 => .tohex512

/-- `CTCMP.alg`. -/
def ctcmp : Alg → Bool → Bool → Instr
  | .sha256 => .ctcmp256
  | .sha512 => .ctcmp512

end Instr

end Sys2Proof
end

