-- ==== Sys2Proof/WellFormed.lean ====
section
/-! DEFINITION. Which instructions an encoding exists for: the slot index must fit the 4-bit field CTX
(spec/30_encoding.md R73). The presence bits are Booleans and always fit. A slot index that fits the field but is not
below `N_CTX(alg)` is well formed: the command then completes with NullContext (R78). -/

namespace Sys2Proof

/-- R73: "CTX is a 4-bit unsigned slot index `i = zext(CTX)`, 0 to 15." -/
def Instr.wf : Instr → Bool
  | .init256 ctx _ => decide (ctx < 16)
  | .init512 ctx _ => decide (ctx < 16)
  | .update256 ctx _ _ => decide (ctx < 16)
  | .update512 ctx _ _ => decide (ctx < 16)
  | .final256 ctx _ _ => decide (ctx < 16)
  | .final512 ctx _ _ => decide (ctx < 16)
  | .oneshot256 _ _ => true
  | .oneshot512 _ _ => true
  | .tohex256 _ _ => true
  | .tohex512 _ _ => true
  | .ctcmp256 _ _ => true
  | .ctcmp512 _ _ => true

/-- The instruction can be written as a command word. -/
abbrev Instr.WellFormed (i : Instr) : Prop := i.wf = true

end Sys2Proof
end

