-- ==== Sys2Proof/Decode.lean ====
section
/-! DEFINITION. The command word (spec/30_encoding.md). `decode` is R80's total function, rejecting by name what R81 calls
illegal; `encode` writes the word of an instruction from the format of R70 and the operation codes of R71; `opcodeRows` is
the opcode map of R86, row by row. -/

namespace Sys2Proof

/-- Why a word is not a command (R81). -/
inductive Illegal
  /-- A bit of [7:5] or [31:15] is set (R75). -/
  | reservedBits
  /-- OP is 6 to 15 (R71). -/
  | reservedOp
  /-- A field the operation does not use is not 0 (R76). -/
  | unusedField
  deriving DecidableEq, Repr

/-! ## Fields of the word (R70) -/

/-- Bits [3:0]. -/
def fieldOp (v : Word) : BitVec 4 := v.extractLsb' 0 4

/-- Bit [4]: 0 is SHA256 and 1 is SHA512 (R72). -/
def fieldAlg (v : Word) : Alg := if v.getLsbD 4 then .sha512 else .sha256

/-- Bits [7:5], reserved. -/
def fieldReservedLow (v : Word) : BitVec 3 := v.extractLsb' 5 3

/-- Bits [11:8], an unsigned index (R73). -/
def fieldCtx (v : Word) : Nat := (v.extractLsb' 8 4).toNat

/-- Bit [12]. -/
def fieldPa (v : Word) : Bool := v.getLsbD 12

/-- Bit [13]. -/
def fieldPb (v : Word) : Bool := v.getLsbD 13

/-- Bit [14]. -/
def fieldPc (v : Word) : Bool := v.getLsbD 14

/-- Bits [31:15], reserved. -/
def fieldReservedHigh (v : Word) : BitVec 17 := v.extractLsb' 15 17

/-! ## Decoding -/

/-- `Decode(word)` of R80, in its order: reserved bits, then reserved operations, then fields that must be 0 (R76). -/
def decode (v : Word) : Except Illegal Instr :=
  if fieldReservedLow v ≠ 0 ∨ fieldReservedHigh v ≠ 0 then .error .reservedBits
  else if 6 ≤ (fieldOp v).toNat then .error .reservedOp
  else if (fieldOp v = 0 ∧ (fieldPa v ∨ fieldPb v)) ∨ (fieldOp v = 1 ∧ fieldPb v) ∨ (fieldOp v = 2 ∧ fieldPa v) ∨
      (3 ≤ (fieldOp v).toNat ∧ (fieldCtx v ≠ 0 ∨ fieldPc v)) then .error .unusedField
  else if fieldOp v = 0 then .ok (.init (fieldAlg v) (fieldCtx v) (fieldPc v))
  else if fieldOp v = 1 then .ok (.update (fieldAlg v) (fieldCtx v) (fieldPa v) (fieldPc v))
  else if fieldOp v = 2 then .ok (.final (fieldAlg v) (fieldCtx v) (fieldPb v) (fieldPc v))
  else if fieldOp v = 3 then .ok (.oneshot (fieldAlg v) (fieldPa v) (fieldPb v))
  else if fieldOp v = 4 then .ok (.tohex (fieldAlg v) (fieldPa v) (fieldPb v))
  else .ok (.ctcmp (fieldAlg v) (fieldPa v) (fieldPb v))

/-- The host's entry: an instruction of `nbits` bits whose bits are `w`, numbered as the opcode table numbers them. Every
command is one 32-bit word (R82), and the word is stored to a register, so no byte order is involved. -/
def decodeTableWord (nbits w : Nat) : Option Instr :=
  match decode (BitVec.ofNat 32 (w % 2 ^ nbits)) with
  | .ok i => some i
  | .error _ => none

/-! ## Encoding -/

/-- The ALG bit (R72). -/
def algBit : Alg → BitVec 1
  | .sha256 => 0
  | .sha512 => 1

/-- The format of R70, most significant field first. -/
def packWord (op : BitVec 4) (alg : Alg) (ctx : Nat) (pa pb pc : Bool) : Word :=
  (0 : BitVec 17) ++ BitVec.ofBool pc ++ BitVec.ofBool pb ++ BitVec.ofBool pa ++ BitVec.ofNat 4 ctx ++ (0 : BitVec 3) ++
    algBit alg ++ op

/-- The command word of an instruction (R70, R71; fields an operation does not use are 0, R76). -/
def encode : Instr → Word
  | .init256 ctx pc => packWord 0 .sha256 ctx false false pc
  | .init512 ctx pc => packWord 0 .sha512 ctx false false pc
  | .update256 ctx pa pc => packWord 1 .sha256 ctx pa false pc
  | .update512 ctx pa pc => packWord 1 .sha512 ctx pa false pc
  | .final256 ctx pb pc => packWord 2 .sha256 ctx false pb pc
  | .final512 ctx pb pc => packWord 2 .sha512 ctx false pb pc
  | .oneshot256 pa pb => packWord 3 .sha256 0 pa pb false
  | .oneshot512 pa pb => packWord 3 .sha512 0 pa pb false
  | .tohex256 pa pb => packWord 4 .sha256 0 pa pb false
  | .tohex512 pa pb => packWord 4 .sha512 0 pa pb false
  | .ctcmp256 pa pb => packWord 5 .sha256 0 pa pb false
  | .ctcmp512 pa pb => packWord 5 .sha512 0 pa pb false

/-! ## The opcode map of R86, as rows of match and mask -/

/-- One row: its mnemonic's match and mask, as `(match, mask)`. -/
abbrev OpcodeRow := Word × Word

/-- The twelve rows, in the table's order. -/
def opcodeRows : List OpcodeRow :=
  [(0x00000000, 0xFFFFB0FF), (0x00000010, 0xFFFFB0FF), (0x00000001, 0xFFFFA0FF), (0x00000011, 0xFFFFA0FF),
   (0x00000002, 0xFFFF90FF), (0x00000012, 0xFFFF90FF)] ++
  [(0x00000003, 0xFFFFCFFF), (0x00000013, 0xFFFFCFFF), (0x00000004, 0xFFFFCFFF), (0x00000014, 0xFFFFCFFF),
   (0x00000005, 0xFFFFCFFF), (0x00000015, 0xFFFFCFFF)]

/-- A word matches a row: its bits under the row's mask are the row's match. -/
def OpcodeRow.matches (r : OpcodeRow) (v : Word) : Bool := v &&& r.2 == r.1

/-- The row of R86 an instruction belongs to. -/
def Instr.row : Instr → OpcodeRow
  | .init256 _ _ => (0x00000000, 0xFFFFB0FF)
  | .init512 _ _ => (0x00000010, 0xFFFFB0FF)
  | .update256 _ _ _ => (0x00000001, 0xFFFFA0FF)
  | .update512 _ _ _ => (0x00000011, 0xFFFFA0FF)
  | .final256 _ _ _ => (0x00000002, 0xFFFF90FF)
  | .final512 _ _ _ => (0x00000012, 0xFFFF90FF)
  | .oneshot256 _ _ => (0x00000003, 0xFFFFCFFF)
  | .oneshot512 _ _ => (0x00000013, 0xFFFFCFFF)
  | .tohex256 _ _ => (0x00000004, 0xFFFFCFFF)
  | .tohex512 _ _ => (0x00000014, 0xFFFFCFFF)
  | .ctcmp256 _ _ => (0x00000005, 0xFFFFCFFF)
  | .ctcmp512 _ _ => (0x00000015, 0xFFFFCFFF)

end Sys2Proof
end

