-- ==== Sys2Proof/Machine/State.lean ====
section
/-! DEFINITION. The state of the machine: everything spec/10_state.md names, the buffer memory of spec/20_memory.md, the
host agent of spec/00_scope.md R7 as plain data, and the model's own fields for what the spec leaves open (races, draws) and
for what it says about access patterns. Log entries 1 to 9, 14, 19, 20
and 23 say what is the model's own here. -/

namespace Sys2Proof.Machine

/-! ## Context slots (the HashContext of the source) -/

/-- `life` (R37); its encoding UNINIT = 0 … FINALIZED = 3 is `Life.code`. -/
inductive Life
  | uninit
  | ready
  | accum
  | finalized
  deriving DecidableEq, Repr

/-- A context of algorithm `alg`: R33 for SHA256, R34 for SHA512. `bitCount` is one unsigned value; the split of the 128-bit
counter into two words is a storage layout (R34). `bufLen` is 6 bits (0 to 63) or 7 bits (0 to 127): a number below the
block size (R35). -/
structure Context (alg : Alg) where
  H : Vector (BitVec alg.w) 8
  bitCount : BitVec alg.counterWidth
  buf : Vector Byte alg.blockSize
  bufLen : Fin alg.blockSize
  life : Life
  deriving DecidableEq, Repr

/-- Every field 0 and `life = UNINIT`: a slot, or a scratch context, right after reset (R250, R251). -/
def Context.zero (alg : Alg) : Context alg :=
  { H := Vector.replicate 8 0, bitCount := 0, buf := Vector.replicate alg.blockSize 0,
    bufLen := ⟨0, alg.blockSize_pos⟩, life := .uninit }

/-! ## The compression datapath (R40) -/

/-- The working variables `a` … `h` (R40, R114). -/
structure WorkVars (alg : Alg) where
  a : BitVec alg.w
  b : BitVec alg.w
  c : BitVec alg.w
  d : BitVec alg.w
  e : BitVec alg.w
  f : BitVec alg.w
  g : BitVec alg.w
  h : BitVec alg.w
  deriving DecidableEq, Repr

/-- The hidden registers of one compression: working variables, message schedule, round counter, round sums (R40, R117). -/
structure Datapath (alg : Alg) where
  vars : WorkVars alg
  W : Vector (BitVec alg.w) alg.rounds
  t : Nat
  T1 : BitVec alg.w
  T2 : BitVec alg.w
  deriving DecidableEq, Repr

/-- Every datapath register 0: what R40 and R117 require outside a compression. -/
def Datapath.zero (alg : Alg) : Datapath alg :=
  { vars := ⟨0, 0, 0, 0, 0, 0, 0, 0⟩, W := Vector.replicate alg.rounds 0, t := 0, T1 := 0, T2 := 0 }

/-! ## Registers, status and the pending latch -/

/-- The status codes of R220. Codes 10 to 15 are reserved and have no name. -/
inductive StatusCode
  | ok
  | nullContext
  | nullData
  | nullOutput
  | counterOverflow
  | nullInput
  | illegalCommand
  | contractViolation
  | busError
  | busyWrite
  deriving DecidableEq, Repr

/-- The registers of the window that have a name (R20). -/
inductive RegName
  | cmd
  | status
  | argALo
  | argAHi
  | argBLo
  | argBHi
  | lenLo
  | lenHi
  | result
  deriving DecidableEq, Repr

/-- The pending-command latch's contents: the command word with the operands latched at its store (R22, R39). -/
structure Latch where
  word : Word
  A : DWord
  B : DWord
  LEN : DWord
  deriving DecidableEq, Repr

/-- One range the latest command read or wrote: its first address and its byte count (R58, R205). -/
inductive Access
  | read (addr n : Nat)
  | write (addr n : Nat)
  deriving DecidableEq, Repr

/-! ## The host agent (R7) -/

/-- The width of a host access to the register window (R21: only `word`, 32 bits, is defined to do something). -/
inductive AccessWidth
  | byte
  | half
  | word
  | dword
  deriving DecidableEq, Repr

/-- What the latest host load returned. -/
inductive HostRead
  | none
  | reg (v : Word)
  | byte (b : Byte)
  deriving DecidableEq, Repr

/-- One action of the host agent (R7). `addr` is a platform address for a register access (the window begins at `REG_BASE`,
R20) and a buffer-memory address for a memory access (R51). -/
inductive HostAction
  /-- Store to the register window. The value of a store of another width is never used, since R21 ignores the store. -/
  | storeReg (width : AccessWidth) (addr : Nat) (v : Word)
  /-- Load from the register window. -/
  | loadReg (width : AccessWidth) (addr : Nat)
  /-- "repeat load STATUS until STATUS[31] = 0" (spec/30_encoding.md R85). -/
  | poll
  /-- Store one byte to buffer memory. -/
  | storeByte (addr : Nat) (b : Byte)
  /-- Load one byte of buffer memory. -/
  | loadByte (addr : Nat)
  deriving DecidableEq, Repr

/-- Whose turn it is (R7: two agents take steps), or the platform's reset input (R250). -/
inductive Turn
  | host (act : HostAction)
  | core
  | reset
  deriving DecidableEq, Repr

/-! ## Buffer memory -/

/-- The bytes of buffer memory that something has written, addresses strictly rising (`Memory.wf`). A byte that is not
listed holds its power-on value, which is free (R252; log entry 2). -/
abbrev Memory := List Host.Cell

/-- The canonical form: addresses strictly rising. An unlisted address has no written value, so no entry can equal it. -/
abbrev Memory.wf (m : Memory) : Prop := m.Pairwise fun x y => x.1 < y.1

/-! ## Why a step can stop -/

/-- The machine stops. The core itself never does: every condition of a command ends in a status code (R221, R228). -/
inductive Fault
  /-- Raised by a HOST turn that loads or stores a buffer-memory byte at an address outside `0 ≤ addr < MEM_SIZE`, which does
  not exist (R51, R62; log entry 16, DESIGN CHOICE). Safe: the model stops where the platform might go on. -/
  | hostByteOutsideMemory
  deriving DecidableEq, Repr

/-- No meaning for what was asked. -/
inductive Refusal
  /-- An instruction without a meaning, by its mnemonic. No arm of `exec` raises it. Safe. -/
  | notModelled (mnemonic : String)
  /-- Raised by a HOST turn that accesses a platform address outside the register window: another device's, of which the
  spec says nothing (R8, R20: the base is the platform's choice; log entry 17, DESIGN CHOICE). Safe. -/
  | outsideRegisterWindow
  deriving DecidableEq, Repr

/-! ## The state -/

/-- Everything the spec gives the machine, and the two agents' schedule. -/
structure State where
  /-- CMD (R22). -/
  cmd : Word
  /-- ARG_A_LO, ARG_A_HI (R27). -/
  argALo : Word
  argAHi : Word
  /-- ARG_B_LO, ARG_B_HI (R28). -/
  argBLo : Word
  argBHi : Word
  /-- LEN_LO, LEN_HI (R29). -/
  lenLo : Word
  lenHi : Word
  /-- STATUS.ERR (R23). -/
  err : BitVec 4
  /-- STATUS.FAULT (R24). -/
  fault : Bool
  /-- STATUS.FCAUSE (R25). -/
  fcause : BitVec 4
  /-- RESULT.EQ (R30). -/
  eq : Bool
  /-- The pending-command latch; STATUS.BUSY is 1 exactly while it is not empty (R26, R39). -/
  pend : Option Latch
  /-- The SHA-256 bank, `N_CTX256` slots (R32, R33). -/
  slots256 : List (Context .sha256)
  /-- The SHA-512 bank, `N_CTX512` slots (R32, R34). -/
  slots512 : List (Context .sha512)
  /-- The hidden scratch contexts ONESHOT uses (R41). -/
  scratch256 : Context .sha256
  scratch512 : Context .sha512
  /-- The hidden compression datapaths (R40). -/
  datapath256 : Datapath .sha256
  datapath512 : Datapath .sha512
  /-- Buffer memory (R50, R51). -/
  mem : Memory
  /-- `MEM_SIZE`, a parameter (R8); no step changes it. -/
  memSize : Nat
  /-- `REG_BASE`, a parameter (R8); no step changes it. -/
  regBase : Nat
  /-- MODEL'S OWN (log entry 4): the buffer-memory addresses the host wrote while the pending command was pending (R257, R258), no
  repeats. -/
  raced : List Nat
  /-- MODEL'S OWN (log entry 3): the index of the current command's free values (`Config.freeByte`, `Config.freeBit`). -/
  draws : Nat
  /-- MODEL'S OWN (log entry 3): the index of the next host load's choice between two values (`Config.freeChoice`). -/
  coins : Nat
  /-- MODEL'S OWN (log entry 5): the ranges the latest command read and wrote, in order (R58, R205). -/
  accesses : List Access
  /-- The host agent: what its latest load returned (log entry 20). -/
  hostRead : HostRead
  /-- The agents' coming turns, earliest first (R7). When it is empty only the core moves (R261; log entry 7). -/
  schedule : List Turn
  deriving DecidableEq, Repr

/-- The machine right after power-on reset, for one choice of the OPEN parameters (R250, R251). -/
def State.resetWith (p : Params) : State :=
  { cmd := 0, argALo := 0, argAHi := 0, argBLo := 0, argBHi := 0, lenLo := 0, lenHi := 0,
    err := 0, fault := false, fcause := 0, eq := false, pend := none,
    slots256 := List.replicate p.nCtx256 (Context.zero .sha256),
    slots512 := List.replicate p.nCtx512 (Context.zero .sha512),
    scratch256 := Context.zero .sha256, scratch512 := Context.zero .sha512,
    datapath256 := Datapath.zero .sha256, datapath512 := Datapath.zero .sha512,
    mem := [], memSize := p.memSize, regBase := p.regBase,
    raced := [], draws := 0, coins := 0, accesses := [], hostRead := .none, schedule := [] }

/-- The machine right after reset, for the parameters of log entry 1. -/
def State.reset : State := State.resetWith Config.params

end Sys2Proof.Machine
end

