-- ==== Sys2Proof/Machine/Flags.lean ====
section
/-! DEFINITION. Every flag and flag-like value: the status codes (spec/60_exceptions.md R220), the STATUS and RESULT words as
the host reads them (spec/10_state.md R23 to R26, R30), the counter check (spec/41_hasher.md R142) and the equality flag of
CTCMP (spec/43_encoding_utils.md R203). -/

namespace Sys2Proof.Machine

/-- The numeric code of a status (R220). -/
def StatusCode.code : StatusCode → BitVec 4
  | .ok => 0
  | .nullContext => 1
  | .nullData => 2
  | .nullOutput => 3
  | .counterOverflow => 4
  | .nullInput => 5
  | .illegalCommand => 6
  | .contractViolation => 7
  | .busError => 8
  | .busyWrite => 9

/-- The encoding of `life` (R37). No host can read it (R38). -/
def Life.code : Life → BitVec 2
  | .uninit => 0
  | .ready => 1
  | .accum => 2
  | .finalized => 3

/-- `Live(slot)`: READY or ACCUM (R37). -/
def Context.live {alg : Alg} (c : Context alg) : Bool := c.life == .ready || c.life == .accum

/-- STATUS.BUSY: 1 exactly while the pending-command latch is not empty (R26, R39; log entry 19). -/
def State.busy (s : State) : Bool := s.pend.isSome

/-- STATUS as the host reads it: ERR [3:0], FAULT [8], FCAUSE [15:12], BUSY [31], every other bit 0 (R23 to R26). -/
def State.statusWord (s : State) : Word :=
  BitVec.ofBool s.busy ++ (0 : BitVec 15) ++ s.fcause ++ (0 : BitVec 3) ++ BitVec.ofBool s.fault ++ (0 : BitVec 4) ++ s.err

/-- RESULT as the host reads it: EQ [0], every other bit 0 (R30). -/
def State.resultWord (s : State) : Word := (0 : BitVec 31) ++ BitVec.ofBool s.eq

/-- `CounterFits(alg, bc, n) ≡ bc + 8·n ≤ 2^CW − 1`, on exact integers (R142). -/
def counterFits (alg : Alg) (bc n : Nat) : Bool := decide (bc + 8 * n ≤ 2 ^ alg.counterWidth - 1)

/-- The accumulator of CTCMP: a running OR of `x[i] ⊕ y[i]` over every byte (R203). -/
def ctAccumulate (x y : List Byte) : Byte := (List.zipWith (· ^^^ ·) x y).foldl (· ||| ·) 0

/-- `CTEq(x, y)`: the accumulator is inspected only after the last byte (R203). -/
def ctEq (x y : List Byte) : Bool := ctAccumulate x y == 0

end Sys2Proof.Machine
end

