-- ==== Sys2Proof/Machine/Operands.lean ====
section
/-! DEFINITION. The operands of a command: the latched `A`, `B` and `LEN` (spec/30_encoding.md R77), the context handle (R78)
and the range check (spec/20_memory.md R51, R52). Presence bits are fields of the instruction (R74). -/

namespace Sys2Proof.Machine

/-- `A = zext_64(ARG_A_HI) << 32 ∨ zext_64(ARG_A_LO)` (R27, R77). -/
def State.argA (s : State) : DWord := s.argAHi ++ s.argALo

/-- `B = zext_64(ARG_B_HI) << 32 ∨ zext_64(ARG_B_LO)` (R28, R77). -/
def State.argB (s : State) : DWord := s.argBHi ++ s.argBLo

/-- `LEN = zext_64(LEN_HI) << 32 ∨ zext_64(LEN_LO)` (R29, R77). -/
def State.argLen (s : State) : DWord := s.lenHi ++ s.lenLo

/-- The latch as a store of `w` to CMD fills it (R22). -/
def State.latch (s : State) (w : Word) : Latch := { word := w, A := s.argA, B := s.argB, LEN := s.argLen }

/-- What the executing command's operands come from: the pending latch (R77). With nothing pending (no run executes a command
then) they are what a CMD store would latch, so that a meaning is defined in every state (log entry 12, DESIGN CHOICE). -/
def State.current (s : State) : Latch := s.pend.getD (s.latch s.cmd)

/-- The address operand `A` of the executing command (R77: not scaled, shifted further or sign-extended). -/
def State.opA (s : State) : Nat := s.current.A.toNat

/-- The address operand `B` of the executing command (R77). -/
def State.opB (s : State) : Nat := s.current.B.toNat

/-- The byte count `LEN` of the executing command (R77). -/
def State.opLen (s : State) : Nat := s.current.LEN.toNat

/-- The bank of context slots of `alg` (R32). -/
def State.slots (s : State) : (alg : Alg) → List (Context alg)
  | .sha256 => s.slots256
  | .sha512 => s.slots512

/-- `N_CTX(alg)`: the size of the bank (R8, R78). -/
def State.nCtx (s : State) (alg : Alg) : Nat := (s.slots alg).length

/-- `ctxValid(alg, PC, CTX) ≡ (PC = 1) ∧ (zext(CTX) < N_CTX(alg))` (R78). -/
def State.ctxValid (s : State) (alg : Alg) (pc : Bool) (ctx : Nat) : Bool := pc && decide (ctx < s.nCtx alg)

/-- The slot a context handle names, when it is valid (R78). -/
def State.handle (s : State) (alg : Alg) (pc : Bool) (ctx : Nat) : Option (Context alg) :=
  if s.ctxValid alg pc ctx then (s.slots alg)[ctx]? else none

/-- `InRange(addr, n) ≡ (n = 0) ∨ (addr + n ≤ MEM_SIZE)`, on exact integers (R51). -/
def State.inRange (s : State) (addr n : Nat) : Bool := decide (n = 0 ∨ addr + n ≤ s.memSize)

end Sys2Proof.Machine
end

