-- ==== Sys2Proof/Machine/Ops.lean ====
section
/-! DEFINITION. The shared operations: buffer memory (spec/20_memory.md R51), a command's reads and writes with the races of
spec/70_reset_and_hazards.md R257 and R258, the slots, and how a command ends: `complete` and `raiseFault`
(spec/60_exceptions.md R222, R223). The core has no trap: ending as a fault is all there is to taking an exception (R228), and
there is no return from one (R229). -/

namespace Sys2Proof.Machine

/-! ## Buffer memory (R51) -/

/-- The byte something has written at an address, if anything has. -/
def Memory.lookup : Memory → Nat → Option Byte
  | [], _ => none
  | (k, v) :: m, a => if k = a then some v else Memory.lookup m a

/-- The byte at an address: what was written there, else its power-on value, which is free (R252; log entry 2). -/
def Memory.read (m : Memory) (a : Nat) : Byte := (m.lookup a).getD (Config.powerOnByte a)

/-- One byte is written; the addresses stay strictly rising. -/
def Memory.write : Memory → Nat → Byte → Memory
  | [], a, b => [(a, b)]
  | (k, v) :: m, a, b =>
    if a < k then (a, b) :: (k, v) :: m else if a = k then (a, b) :: m else (k, v) :: Memory.write m a b

/-- `MemWrite(addr, n, s)`: the bytes go to rising addresses (R51). -/
def Memory.writeBytes : Memory → Nat → List Byte → Memory
  | m, _, [] => m
  | m, addr, b :: bs => Memory.writeBytes (m.write addr b) (addr + 1) bs

/-- `MemWrite` by a pending command whose range the host wrote to meanwhile: a raced byte ends as the host's value or the
command's, and a free value for its address says which (R258). -/
def Memory.writeRaced (raced : List Nat) (draw : Nat) : Memory → Nat → List Byte → Memory
  | m, _, [] => m
  | m, addr, b :: bs =>
    Memory.writeRaced raced draw (if addr ∈ raced ∧ Config.freeBit draw addr then m else m.write addr b) (addr + 1) bs

/-- The byte the executing command takes from an address: the byte of buffer memory, or any value where the host wrote while the
command was pending. It is one draw for each such byte, however many of the command's ranges hold it (R257; log entry 15). -/
def State.inputByte (s : State) (a : Nat) : Byte := if a ∈ s.raced then Config.freeByte s.draws a else s.mem.read a

/-- `MemRead(addr, n)` by the executing command: the bytes (R51, R257). -/
def State.fetched (s : State) (addr n : Nat) : List Byte := (List.range n).map fun k => s.inputByte (addr + k)

/-- `MemRead(addr, n)` by the executing command: the state after it. Buffer memory is not changed (R61). -/
def State.afterFetch (s : State) (addr n : Nat) : State := { s with accesses := s.accesses ++ [.read addr n] }

/-- `MemWrite(addr, n, bs)` by the executing command (R51, R258). -/
def State.store (s : State) (addr : Nat) (bs : List Byte) : State :=
  { s with
    mem := Memory.writeRaced s.raced s.draws s.mem addr bs
    accesses := s.accesses ++ [.write addr bs.length] }

/-! ## Slots, scratch contexts and datapaths -/

/-- A bank of slots is replaced. -/
def State.setSlots (s : State) : (alg : Alg) → List (Context alg) → State
  | .sha256, bank => { s with slots256 := bank }
  | .sha512, bank => { s with slots512 := bank }

/-- `slot(alg, i) <- c` (R10, R32). -/
def State.setSlot (s : State) (alg : Alg) (i : Nat) (c : Context alg) : State :=
  s.setSlots alg ((s.slots alg).set i c)

/-- The scratch context of `alg` (R41). -/
def State.scratch (s : State) : (alg : Alg) → Context alg
  | .sha256 => s.scratch256
  | .sha512 => s.scratch512

/-- `scratch(alg) <- c` (R41). -/
def State.setScratch (s : State) : (alg : Alg) → Context alg → State
  | .sha256, c => { s with scratch256 := c }
  | .sha512, c => { s with scratch512 := c }

/-- The compression datapath of `alg` (R40). -/
def State.datapath (s : State) : (alg : Alg) → Datapath alg
  | .sha256 => s.datapath256
  | .sha512 => s.datapath512

/-- The datapath as a command that ran compressions leaves it: cleared, before the command completes (R117, R260; log entry
23). -/
def State.clearDatapath (s : State) : Alg → State
  | .sha256 => { s with datapath256 := Datapath.zero .sha256 }
  | .sha512 => { s with datapath512 := Datapath.zero .sha512 }

/-- `reg[RESULT.EQ] <- v` (R30). -/
def State.setEq (s : State) (v : Bool) : State := { s with eq := v }

/-! ## The life of a command -/

/-- A command begins: it has made no access yet. -/
def State.begin (s : State) : State := { s with accesses := [] }

/-- A store of `w` to CMD while BUSY = 0: CMD takes the value, the operands are latched with it, and the command is pending
(R22). No byte has been raced yet. -/
def State.accept (s : State) (w : Word) : State :=
  { s with cmd := w, pend := some (s.latch w), raced := [], accesses := [] }

/-- `complete(code)`: ERR takes the code, BUSY reads 0 and the latch is empty; FAULT and FCAUSE are not changed (R222). The next
command draws its free values anew. -/
def State.complete (s : State) (code : StatusCode) : State :=
  { s with err := code.code, pend := none, raced := [], draws := s.draws + 1 }

/-- The first fault since reset is kept in FCAUSE, and FAULT is set (R24, R25, R223, R224). -/
def State.recordFault (s : State) (code : StatusCode) : State :=
  { s with fcause := bif s.fault then s.fcause else code.code, fault := true }

/-- `raise fault(code)`: the fault is recorded and the command ends with its code (R223). -/
def State.raiseFault (s : State) (code : StatusCode) : State := (s.recordFault code).complete code

end Sys2Proof.Machine
end

