-- ==== Sys2Proof/Machine/Encoding.lean ====
section
/-! DEFINITION. The hex serializer and the constant-time comparator, TOHEX and CTCMP (spec/43_encoding_utils.md). -/

namespace Sys2Proof.Machine

/-- `HEX[0..15]`, the ASCII characters `0123456789abcdef` (R200). -/
def hexAlphabet : List Byte :=
  [0x30, 0x31, 0x32, 0x33, 0x34, 0x35, 0x36, 0x37, 0x38, 0x39, 0x61, 0x62, 0x63, 0x64, 0x65, 0x66]

/-- `HEX[v]` of a nibble (R200). -/
def hexDigit (v : BitVec 4) : Byte := hexAlphabet.getD v.toNat 0

/-- The two characters of one byte, high nibble first (R201). -/
def hexOfByte (b : Byte) : List Byte := [hexDigit (b.extractLsb' 4 4), hexDigit (b.extractLsb' 0 4)]

/-- `ToHex(d)`: digest byte 0 first, no terminator (R201). -/
def toHex (d : List Byte) : List Byte := d.flatMap hexOfByte

/-- TOHEX past its checks: the digest is read, then its characters are written (R60, R202). -/
def tohexRun (alg : Alg) (s : State) : State :=
  ((s.afterFetch s.opA alg.digestSize).store s.opB (toHex (s.fetched s.opA alg.digestSize))).complete .ok

/-- TOHEX (R202). -/
def tohexCommand (alg : Alg) (pa pb : Bool) (s : State) : State :=
  if pa = false ∨ pb = false then s.begin.complete .nullInput
  else if s.inRange s.opA alg.digestSize = false ∨ s.inRange s.opB (2 * alg.digestSize) = false then
    s.begin.raiseFault .busError
  else tohexRun alg s.begin

/-- CTCMP past its checks: all of `x`, then all of `y`, whatever their values; then EQ (R204, R205). A byte in both ranges is taken
as one value (R257; log entry 15), so that comparing a range with itself gives 1. -/
def ctcmpRun (alg : Alg) (s : State) : State :=
  (((s.afterFetch s.opA alg.digestSize).afterFetch s.opB alg.digestSize).setEq
    (ctEq (s.fetched s.opA alg.digestSize) (s.fetched s.opB alg.digestSize))).complete .ok

/-- CTCMP (R204). -/
def ctcmpCommand (alg : Alg) (pa pb : Bool) (s : State) : State :=
  if pa = false ∨ pb = false then (s.begin.setEq false).complete .nullInput
  else if s.inRange s.opA alg.digestSize = false ∨ s.inRange s.opB alg.digestSize = false then
    s.begin.raiseFault .busError
  else ctcmpRun alg s.begin

/-! ## The meanings -/

/-- TOHEX.256 (R202). -/
def execTohex256 (pa pb : Bool) (s : State) : Host.Outcome State Fault Refusal := .next (tohexCommand .sha256 pa pb s)

/-- TOHEX.512 (R202). -/
def execTohex512 (pa pb : Bool) (s : State) : Host.Outcome State Fault Refusal := .next (tohexCommand .sha512 pa pb s)

/-- CTCMP.256 (R204). -/
def execCtcmp256 (pa pb : Bool) (s : State) : Host.Outcome State Fault Refusal := .next (ctcmpCommand .sha256 pa pb s)

/-- CTCMP.512 (R204). -/
def execCtcmp512 (pa pb : Bool) (s : State) : Host.Outcome State Fault Refusal := .next (ctcmpCommand .sha512 pa pb s)

end Sys2Proof.Machine
end

