-- ==== Sys2Proof/Machine/Compression.lean ====
section
/-! DEFINITION. The compression cores (spec/40_compression.md). One definition serves both algorithms: they differ in the word
width, the rotation and shift amounts, the constants and the number of rounds (R2). Addition on `BitVec` is `+_w` (R101). -/

namespace Sys2Proof.Machine

/-! ## Bytes and words (R9, R53, R54) -/

/-- `BE_w(s)`: the word whose most significant byte is the first (R9). -/
def wordOfBytes (alg : Alg) (bs : List Byte) : BitVec alg.w :=
  bs.foldl (fun acc b => (acc <<< 8) ||| b.setWidth alg.w) 0

/-- `toBE_n(x)`: the `n` bytes of `x mod 2^(8n)`, most significant byte first (R9). -/
def bytesOfNat (n x : Nat) : List Byte :=
  (List.range n).map fun k => BitVec.ofNat 8 (x / 2 ^ (8 * (n - 1 - k)))

/-! ## Word operations (R101 to R111) -/

/-- `ROTR_w(x, n)` (R9): `((x >> n) ∨ (x << (w − n))) mod 2^w`, for `0 < n < w`. -/
def rotr {w : Nat} (x : BitVec w) (n : Nat) : BitVec w := (x >>> n) ||| (x <<< (w - n))

/-- The choice function (R102). -/
def ch {w : Nat} (x y z : BitVec w) : BitVec w := (x &&& y) ^^^ (~~~x &&& z)

/-- The majority function (R103). -/
def maj {w : Nat} (x y z : BitVec w) : BitVec w := (x &&& y) ^^^ (x &&& z) ^^^ (y &&& z)

/-- `Σ0` (R104, R108). -/
def bigSigma0 : (alg : Alg) → BitVec alg.w → BitVec alg.w
  | .sha256, x => rotr x 2 ^^^ rotr x 13 ^^^ rotr x 22
  | .sha512, x => rotr x 28 ^^^ rotr x 34 ^^^ rotr x 39

/-- `Σ1` (R105, R109). -/
def bigSigma1 : (alg : Alg) → BitVec alg.w → BitVec alg.w
  | .sha256, x => rotr x 6 ^^^ rotr x 11 ^^^ rotr x 25
  | .sha512, x => rotr x 14 ^^^ rotr x 18 ^^^ rotr x 41

/-- `σ0` (R106, R110). -/
def smallSigma0 : (alg : Alg) → BitVec alg.w → BitVec alg.w
  | .sha256, x => rotr x 7 ^^^ rotr x 18 ^^^ (x >>> 3)
  | .sha512, x => rotr x 1 ^^^ rotr x 8 ^^^ (x >>> 7)

/-- `σ1` (R107, R111). -/
def smallSigma1 : (alg : Alg) → BitVec alg.w → BitVec alg.w
  | .sha256, x => rotr x 17 ^^^ rotr x 19 ^^^ (x >>> 10)
  | .sha512, x => rotr x 19 ^^^ rotr x 61 ^^^ (x >>> 6)

/-! ## The message schedule (R112, R113) -/

/-- R112: the block as 16 big-endian words, `W[j] = BE_w(M[j·(w/8) .. (j+1)·(w/8)))`. -/
def parseBlock (alg : Alg) (M : List Byte) : List (BitVec alg.w) :=
  (List.range 16).map fun j => wordOfBytes alg ((M.drop (j * (alg.w / 8))).take (alg.w / 8))

/-- R113: the next schedule word `W[j]`, for `j` the number of words so far. -/
def nextScheduleWord (alg : Alg) (W : List (BitVec alg.w)) : BitVec alg.w :=
  smallSigma1 alg (W.getD (W.length - 2) 0) + W.getD (W.length - 7) 0 +
    smallSigma0 alg (W.getD (W.length - 15) 0) + W.getD (W.length - 16) 0

/-- R113: `n` further schedule words, in increasing order. -/
def expandSchedule (alg : Alg) : Nat → List (BitVec alg.w) → List (BitVec alg.w)
  | 0, W => W
  | n + 1, W => expandSchedule alg n (W ++ [nextScheduleWord alg W])

/-- The whole schedule, `R` words (R112, R113, R122). -/
def messageSchedule (alg : Alg) (M : List Byte) : List (BitVec alg.w) :=
  expandSchedule alg (alg.rounds - 16) (parseBlock alg M)

/-! ## The datapath (R112 to R117) -/

/-- R112 to R114: the schedule is filled from the block and the working variables are seeded from the current state. -/
def Datapath.load {alg : Alg} (dp : Datapath alg) (H : Vector (BitVec alg.w) 8) (M : List Byte) : Datapath alg :=
  { dp with
    W := Vector.ofFn fun j => (messageSchedule alg M).getD j 0
    vars := ⟨H[0], H[1], H[2], H[3], H[4], H[5], H[6], H[7]⟩ }

/-- R115: round `t`. Every right-hand side reads the values from before the round. -/
def Datapath.round {alg : Alg} (dp : Datapath alg) (t : Nat) : Datapath alg :=
  let v := dp.vars
  let T1 := v.h + bigSigma1 alg v.e + ch v.e v.f v.g + (roundConstants alg).getD t 0 + dp.W.toList.getD t 0
  let T2 := bigSigma0 alg v.a + maj v.a v.b v.c
  { dp with
    vars := ⟨T1 + T2, v.a, v.b, v.c, v.d + T1, v.e, v.f, v.g⟩
    t := t
    T1 := T1
    T2 := T2 }

/-- R115, R122: rounds `0 … R − 1` in increasing order. -/
def Datapath.runRounds {alg : Alg} (dp : Datapath alg) : Datapath alg :=
  (List.range alg.rounds).foldl Datapath.round dp

/-- R116: the working variables are added back into the state words. -/
def addBack {alg : Alg} (H : Vector (BitVec alg.w) 8) (v : WorkVars alg) : Vector (BitVec alg.w) 8 :=
  #v[H[0] + v.a, H[1] + v.b, H[2] + v.c, H[3] + v.d, H[4] + v.e, H[5] + v.f, H[6] + v.g, H[7] + v.h]

/-- R117: the schedule, the working variables, `T1`, `T2` and the round counter are set to 0. -/
def Datapath.clear {alg : Alg} (_dp : Datapath alg) : Datapath alg := Datapath.zero alg

/-- `Compress_alg(H, M)` run on a datapath (R123): the updated state words, and the datapath as it is left. -/
def Datapath.compress {alg : Alg} (dp : Datapath alg) (H : Vector (BitVec alg.w) 8) (M : List Byte) :
    Vector (BitVec alg.w) 8 × Datapath alg :=
  let done := (dp.load H M).runRounds
  (addBack H done.vars, done.clear)

/-- `Compress_alg(H, M)` as the pure function of R100. -/
def compress (alg : Alg) (H : Vector (BitVec alg.w) 8) (M : List Byte) : Vector (BitVec alg.w) 8 :=
  ((Datapath.zero alg).compress H M).1

/-- `Compress_alg` over the first `n` blocks of `data`, in order (R140, R141). -/
def compressBlocks (alg : Alg) : Nat → Vector (BitVec alg.w) 8 → List Byte → Vector (BitVec alg.w) 8
  | 0, H, _ => H
  | n + 1, H, data => compressBlocks alg n (compress alg H (data.take alg.blockSize)) (data.drop alg.blockSize)

end Sys2Proof.Machine
end

