-- ==== Sys2Proof/Machine/Buffering.lean ====
section
/-! DEFINITION. The incremental hasher's context operations (spec/41_hasher.md): INIT's fresh context, the wipe of
spec/10_state.md R45, and `Absorb` in the two forms the spec gives: byte by byte (R141, the form the machine runs) and block by
block (R140, to which a statement compares it). R141: "A model may implement either form." (log entry 14). -/

namespace Sys2Proof.Machine

/-- The context INIT leaves: `IV_alg`, everything else 0, READY (R143). -/
def Context.init (alg : Alg) : Context alg :=
  { H := initialState alg, bitCount := 0, buf := Vector.replicate alg.blockSize 0,
    bufLen := ⟨0, alg.blockSize_pos⟩, life := .ready }

/-- `Wipe(s)`: every field 0 and `life <- FINALIZED` (R45). -/
def Context.wipe {alg : Alg} (_c : Context alg) : Context alg :=
  { H := Vector.replicate 8 0, bitCount := 0, buf := Vector.replicate alg.blockSize 0,
    bufLen := ⟨0, alg.blockSize_pos⟩, life := .finalized }

/-- `s.buf[0 .. s.bufLen)`: the buffered bytes, the only ones of `buf` that mean anything (R35). -/
def Context.pending {alg : Alg} (c : Context alg) : List Byte := c.buf.toList.take c.bufLen

/-- One byte is appended; a full block is compressed and the buffer emptied (R141). -/
def Context.pushByte {alg : Alg} (c : Context alg) (x : Byte) : Context alg :=
  let buf := c.buf.set c.bufLen x
  if h : c.bufLen.val + 1 < alg.blockSize then { c with buf := buf, bufLen := ⟨c.bufLen.val + 1, h⟩ }
  else { c with H := compress alg c.H buf.toList, buf := buf, bufLen := ⟨0, alg.blockSize_pos⟩ }

/-- `Absorb(s, data)`: the bytes are appended in order (R141). `bitCount` and `life` are not changed. -/
def Context.absorb {alg : Alg} (c : Context alg) (data : List Byte) : Context alg := data.foldl Context.pushByte c

/-- What UPDATE does to a context: the counter grows by `8·LEN`, the data is absorbed, and the context is ACCUM (R144). -/
def Context.append {alg : Alg} (c : Context alg) (data : List Byte) : Context alg :=
  { ({ c with bitCount := c.bitCount + BitVec.ofNat alg.counterWidth (8 * data.length) } : Context alg).absorb data with
    life := .accum }

/-! ## The block form of `Absorb` (R140) -/

/-- What `Absorb` must leave: the state words and the buffered bytes. -/
structure Absorbed (alg : Alg) where
  H : Vector (BitVec alg.w) 8
  pending : List Byte
  deriving DecidableEq, Repr

/-- The rest of R140, with an empty buffer: every full block directly from the input, then the tail into the buffer. -/
def absorbWholeBlocks {alg : Alg} (H : Vector (BitVec alg.w) 8) (data : List Byte) : Absorbed alg :=
  let n := data.length / alg.blockSize
  { H := compressBlocks alg n H data, pending := data.drop (n * alg.blockSize) }

/-- `Absorb(s, data)` as R140 writes it: top the buffer up first; if that fills a block, compress it and empty the buffer;
then the full blocks of the input, then its tail. -/
def Context.absorbByBlocks {alg : Alg} (c : Context alg) (data : List Byte) : Absorbed alg :=
  if 0 < c.bufLen.val then
    let taken := min data.length (alg.blockSize - c.bufLen.val)
    let buffered := c.pending ++ data.take taken
    if buffered.length = alg.blockSize then absorbWholeBlocks (compress alg c.H buffered) (data.drop taken)
    else { H := c.H, pending := buffered }
  else absorbWholeBlocks c.H data

end Sys2Proof.Machine
end

