-- ==== Sys2Proof/Machine/Padding.lean ====
section
/-! DEFINITION. The padding and finalization engine (spec/42_padding.md). -/

namespace Sys2Proof.Machine

/-- The zero-fill count `z` of R180: within the current block if `k < B − L`, else one additional block (R181). -/
def padZeros (alg : Alg) (k : Nat) : Nat :=
  if k < alg.blockSize - alg.lengthSize then alg.blockSize - alg.lengthSize - 1 - k
  else 2 * alg.blockSize - alg.lengthSize - 1 - k

/-- `Pad(alg, k, bc) = 0x80 ‖ 0^z ‖ toBE_L(bc)` (R180, R183). -/
def pad (alg : Alg) (k bc : Nat) : List Byte :=
  (0x80 : Byte) :: (List.replicate (padZeros alg k) 0 ++ bytesOfNat alg.lengthSize bc)

/-- `toBE_{w/8}(H[0]) ‖ … ‖ toBE_{w/8}(H[7])` (R54). -/
def digestBytes {alg : Alg} (H : Vector (BitVec alg.w) 8) : List Byte :=
  H.toList.flatMap fun x => bytesOfNat (alg.w / 8) x.toNat

/-- The context after its padding went through `Absorb`; `bitCount` is not written (R184, R185). -/
def Context.padded {alg : Alg} (c : Context alg) : Context alg := c.absorb (pad alg c.bufLen c.bitCount.toNat)

/-- `Finalize(s)`: the `D` bytes of the digest (R185). -/
def Context.finalize {alg : Alg} (c : Context alg) : List Byte := digestBytes c.padded.H

end Sys2Proof.Machine
end

