-- ==== Sys2Proof/Machine/Hasher.lean ====
section
/-! DEFINITION. INIT, UPDATE, FINAL and ONESHOT (spec/41_hasher.md R143 to R146). Each command is written once, for either
algorithm, in the order of its pseudocode: the first condition that holds ends the command (spec/00_scope.md R10,
spec/60_exceptions.md R226). Every condition ends in a status code, so every meaning answers a next state. -/

namespace Sys2Proof.Machine

/-- INIT (R143). -/
def initCommand (alg : Alg) (ctx : Nat) (pc : Bool) (s : State) : State :=
  match s.begin.handle alg pc ctx with
  | none => s.begin.complete .nullContext
  | some _ => (s.begin.setSlot alg ctx (Context.init alg)).complete .ok

/-- UPDATE on a named slot, past the handle check (R144). -/
def updateSlot (alg : Alg) (ctx : Nat) (pa : Bool) (c : Context alg) (s : State) : State :=
  if pa = false ∧ 0 < s.opLen then s.complete .nullData
  else if c.live = false then s.raiseFault .contractViolation
  else if s.opLen = 0 then (s.setSlot alg ctx { c with life := .accum }).complete .ok
  else if counterFits alg c.bitCount.toNat s.opLen = false then (s.setSlot alg ctx c.wipe).complete .counterOverflow
  else if s.inRange s.opA s.opLen = false then s.raiseFault .busError
  else
    (((s.afterFetch s.opA s.opLen).setSlot alg ctx (c.append (s.fetched s.opA s.opLen))).clearDatapath alg).complete .ok

/-- UPDATE (R144). -/
def updateCommand (alg : Alg) (ctx : Nat) (pa pc : Bool) (s : State) : State :=
  match s.begin.handle alg pc ctx with
  | none => s.begin.complete .nullContext
  | some c => updateSlot alg ctx pa c s.begin

/-- FINAL on a named slot, past the handle check (R145). -/
def finalSlot (alg : Alg) (ctx : Nat) (pb : Bool) (c : Context alg) (s : State) : State :=
  if pb = false then (s.setSlot alg ctx c.wipe).complete .nullOutput
  else if c.live = false then s.raiseFault .contractViolation
  else if s.inRange s.opB alg.digestSize = false then s.raiseFault .busError
  else (((s.setSlot alg ctx c.wipe).clearDatapath alg).store s.opB c.finalize).complete .ok

/-- FINAL (R145). -/
def finalCommand (alg : Alg) (ctx : Nat) (pb pc : Bool) (s : State) : State :=
  match s.begin.handle alg pc ctx with
  | none => s.begin.complete .nullContext
  | some c => finalSlot alg ctx pb c s.begin

/-- The scratch context is wiped, on every path of ONESHOT (R41, R146). -/
def State.wipeScratch (s : State) (alg : Alg) : State := s.setScratch alg (s.scratch alg).wipe

/-- ONESHOT's scratch context after its Init and Update steps (R146). -/
def oneshotContext (alg : Alg) (s : State) : Context alg :=
  if 0 < s.opLen then (Context.init alg).append (s.fetched s.opA s.opLen) else { Context.init alg with life := .accum }

/-- The state after ONESHOT's Update step: its input is read, and the scratch context holds the absorbed stream (R146). -/
def oneshotAbsorb (alg : Alg) (s : State) : State :=
  (if 0 < s.opLen then (s.afterFetch s.opA s.opLen).clearDatapath alg else s).setScratch alg (oneshotContext alg s)

/-- ONESHOT's Final step on its scratch context (R146). -/
def oneshotFinal (alg : Alg) (pb : Bool) (s : State) : State :=
  if pb = false then (s.wipeScratch alg).complete .nullOutput
  else (((s.wipeScratch alg).clearDatapath alg).store s.opB (s.scratch alg).finalize).complete .ok

/-- ONESHOT past its Init step, its checks in the order of R146. An output range outside buffer memory is found before the input
is read: a command with such a range "reads and writes no buffer memory" (R52, R58; log entry 11). -/
def oneshotUpdate (alg : Alg) (pa pb : Bool) (s : State) : State :=
  if pa = false ∧ 0 < s.opLen then (s.wipeScratch alg).complete .nullData
  else if counterFits alg 0 s.opLen = false then (s.wipeScratch alg).complete .counterOverflow
  else if s.inRange s.opA s.opLen = false then (s.wipeScratch alg).raiseFault .busError
  else if pb = true ∧ s.inRange s.opB alg.digestSize = false then (s.wipeScratch alg).raiseFault .busError
  else oneshotFinal alg pb (oneshotAbsorb alg s)

/-- ONESHOT's Init step: its scratch context is what INIT leaves a slot as (R146). It cannot fail. -/
def oneshotBegin (alg : Alg) (s : State) : State := s.begin.setScratch alg (Context.init alg)

/-- ONESHOT (R146): "Init + Update + Final composed", on the hidden scratch context. -/
def oneshotCommand (alg : Alg) (pa pb : Bool) (s : State) : State := oneshotUpdate alg pa pb (oneshotBegin alg s)

/-! ## The meanings -/

/-- INIT.256 (R143). -/
def execInit256 (ctx : Nat) (pc : Bool) (s : State) : Host.Outcome State Fault Refusal :=
  .next (initCommand .sha256 ctx pc s)

/-- INIT.512 (R143). -/
def execInit512 (ctx : Nat) (pc : Bool) (s : State) : Host.Outcome State Fault Refusal :=
  .next (initCommand .sha512 ctx pc s)

/-- UPDATE.256 (R144). -/
def execUpdate256 (ctx : Nat) (pa pc : Bool) (s : State) : Host.Outcome State Fault Refusal :=
  .next (updateCommand .sha256 ctx pa pc s)

/-- UPDATE.512 (R144). -/
def execUpdate512 (ctx : Nat) (pa pc : Bool) (s : State) : Host.Outcome State Fault Refusal :=
  .next (updateCommand .sha512 ctx pa pc s)

/-- FINAL.256 (R145). -/
def execFinal256 (ctx : Nat) (pb pc : Bool) (s : State) : Host.Outcome State Fault Refusal :=
  .next (finalCommand .sha256 ctx pb pc s)

/-- FINAL.512 (R145). -/
def execFinal512 (ctx : Nat) (pb pc : Bool) (s : State) : Host.Outcome State Fault Refusal :=
  .next (finalCommand .sha512 ctx pb pc s)

/-- ONESHOT.256 (R146). -/
def execOneshot256 (pa pb : Bool) (s : State) : Host.Outcome State Fault Refusal :=
  .next (oneshotCommand .sha256 pa pb s)

/-- ONESHOT.512 (R146). -/
def execOneshot512 (pa pb : Bool) (s : State) : Host.Outcome State Fault Refusal :=
  .next (oneshotCommand .sha512 pa pb s)

end Sys2Proof.Machine
end

