-- ==== Sys2Proof/Machine/Dispatch.lean ====
section
/-! DEFINITION. One arm per instruction. -/

namespace Sys2Proof.Machine

def exec (i : Instr) (s : State) : Host.Outcome State Fault Refusal :=
  match i with
  | .init256 ctx pc => Sys2Proof.Machine.execInit256 ctx pc s
  | .init512 ctx pc => Sys2Proof.Machine.execInit512 ctx pc s
  | .update256 ctx pa pc => Sys2Proof.Machine.execUpdate256 ctx pa pc s
  | .update512 ctx pa pc => Sys2Proof.Machine.execUpdate512 ctx pa pc s
  | .final256 ctx pb pc => Sys2Proof.Machine.execFinal256 ctx pb pc s
  | .final512 ctx pb pc => Sys2Proof.Machine.execFinal512 ctx pb pc s
  | .oneshot256 pa pb => Sys2Proof.Machine.execOneshot256 pa pb s
  | .oneshot512 pa pb => Sys2Proof.Machine.execOneshot512 pa pb s
  | .tohex256 pa pb => Sys2Proof.Machine.execTohex256 pa pb s
  | .tohex512 pa pb => Sys2Proof.Machine.execTohex512 pa pb s
  | .ctcmp256 pa pb => Sys2Proof.Machine.execCtcmp256 pa pb s
  | .ctcmp512 pa pb => Sys2Proof.Machine.execCtcmp512 pa pb s

end Sys2Proof.Machine
end

