-- ==== Sys2Proof/Machine/Agents.lean ====
section
/-! DEFINITION. The two agents (spec/00_scope.md R7) and the reset input (spec/70_reset_and_hazards.md R250): the core's one
step, the host's accesses to the register window (spec/10_state.md R20 to R31) and to buffer memory, with the races of R257 and
R258. Step.lean only says whose turn it is. -/

namespace Sys2Proof.Machine

/-! ## The core (R7, R39, R80, R81) -/

/-- The core takes the pending latch: a word that decodes is executed, and one that does not completes with the IllegalCommand
fault, before any operand is read (R81, R223). With nothing pending the core has nothing to do (R66). -/
def coreTurn (s : State) : Host.Outcome State Fault Refusal :=
  match s.pend with
  | none => .next s
  | some p =>
    match decode p.word with
    | .ok i => exec i s
    | .error _ => .next (s.begin.raiseFault .illegalCommand)

/-! ## The register window (R20 to R31) -/

/-- The register at an offset of the window; the others are reserved (R20, R31). -/
def regAt : Nat → Option RegName
  | 0x00 => some .cmd
  | 0x04 => some .status
  | 0x08 => some .argALo
  | 0x0C => some .argAHi
  | 0x10 => some .argBLo
  | 0x14 => some .argBHi
  | 0x18 => some .lenLo
  | 0x1C => some .lenHi
  | 0x20 => some .result
  | _ => none

/-- What a load of a register returns (R22 to R30). -/
def State.readReg (s : State) : RegName → Word
  | .cmd => s.cmd
  | .status => s.statusWord
  | .argALo => s.argALo
  | .argAHi => s.argAHi
  | .argBLo => s.argBLo
  | .argBHi => s.argBHi
  | .lenLo => s.lenLo
  | .lenHi => s.lenHi
  | .result => s.resultWord

/-- What a store to a register does while BUSY = 0 (R22, R27 to R29). STATUS and RESULT are read-only: log entry 10. -/
def State.writeRegIdle (s : State) (v : Word) : RegName → State
  | .cmd => s.accept v
  | .status => s
  | .argALo => { s with argALo := v }
  | .argAHi => { s with argAHi := v }
  | .argBLo => { s with argBLo := v }
  | .argBHi => { s with argBHi := v }
  | .lenLo => { s with lenLo := v }
  | .lenHi => { s with lenHi := v }
  | .result => s

/-- The registers a store to which, while BUSY = 1, is a BusyWrite fault (R224). -/
def RegName.guarded : RegName → Bool
  | .status => false
  | .result => false
  | _ => true

/-- A store to a register: while BUSY = 1 a guarded register keeps its value and the BusyWrite fault is recorded, with ERR, BUSY
and the pending command unchanged (R224). -/
def State.writeReg (s : State) (r : RegName) (v : Word) : State :=
  if s.busy then (if r.guarded then s.recordFault .busyWrite else s) else s.writeRegIdle v r

/-- A host load at an offset of the window: an aligned 32-bit word, or 0 (R21, R31). -/
def State.windowRead (s : State) (width : AccessWidth) (off : Nat) : Word :=
  if width = .word ∧ off % 4 = 0 then ((regAt off).map s.readReg).getD 0 else 0

/-- A host store at an offset of the window: an aligned 32-bit word to a register; anything else is ignored (R21, R31). -/
def State.windowWrite (s : State) (width : AccessWidth) (off : Nat) (v : Word) : State :=
  if width = .word ∧ off % 4 = 0 then
    match regAt off with
    | some r => s.writeReg r v
    | none => s
  else s

/-- The offset of a platform address in the window of 0x100 bytes at `REG_BASE` (R20). -/
def State.windowOffset (s : State) (addr : Nat) : Option Nat :=
  if s.regBase ≤ addr ∧ addr < s.regBase + 0x100 then some (addr - s.regBase) else none

/-! ## The pending command's output range (R58, R253, R258) -/

/-- How many bytes a command writes at `B`, if it writes any (R58); with PB = 0, `B` is not read (R74). -/
def Instr.outputSize : Instr → Option Nat
  | .final256 _ true _ => some 32
  | .final512 _ true _ => some 64
  | .oneshot256 _ true => some 32
  | .oneshot512 _ true => some 64
  | .tohex256 _ true => some 64
  | .tohex512 _ true => some 128
  | _ => none

/-- The part of the pending command's output range that lies in buffer memory: its first address and how many bytes. A range that
runs past the end is cut there; the command will not write it (R52), and R253 frees its bytes all the same (log entry 8). -/
def State.pendingOutput (s : State) : Option (Nat × Nat) :=
  match s.pend with
  | none => none
  | some p =>
    match decode p.word with
    | .error _ => none
    | .ok i => (Instr.outputSize i).map fun n => (p.B.toNat, min n (s.memSize - p.B.toNat))

/-- An address lies in the pending command's output range. -/
def State.inPendingOutput (s : State) (a : Nat) : Bool :=
  match s.pendingOutput with
  | none => false
  | some (addr, n) => decide (addr ≤ a ∧ a < addr + n)

/-- A host store of one byte (R61). While a command is pending the address is remembered as raced (R257, R258). -/
def State.hostStoreByte (s : State) (a : Nat) (b : Byte) : State :=
  { s with
    mem := s.mem.write a b
    raced := if s.busy = true ∧ a ∉ s.raced then a :: s.raced else s.raced }

/-- Buffer memory after a reset: unchanged (R252), but for the output range of a command that was pending, every byte of which
holds any value (R253). -/
def State.memAfterReset (s : State) : Memory :=
  match s.pendingOutput with
  | none => s.mem
  | some (addr, n) => s.mem.writeBytes addr ((List.range n).map fun k => Config.freeByte s.draws (addr + k))

/-- Buffer memory as the core's turn leaves it. -/
def State.memAfterCore (s : State) : Memory :=
  match coreTurn s with
  | .next t => t.mem
  | .fault _ => s.mem
  | .refused _ => s.mem

/-- Buffer memory right after the pending command is over, with these turns to come: the core's turn completes it, or a reset abandons
it. Of the host's turns before that, only stores to buffer memory bear on it; a poll that reads BUSY = 1 gives the core its turn. -/
def finalMemory : List Turn → State → Memory
  | [], s => s.memAfterCore
  | .core :: _, s => s.memAfterCore
  | .reset :: _, s => s.memAfterReset
  | .host .poll :: _, s => s.memAfterCore
  | .host (.storeByte a b) :: ts, s => finalMemory ts (s.hostStoreByte a b)
  | .host (.loadByte _) :: ts, s => finalMemory ts s
  | .host (.storeReg _ _ _) :: ts, s => finalMemory ts s
  | .host (.loadReg _ _) :: ts, s => finalMemory ts s

/-- What a host load of a byte of the pending command's output range returns (R258): "either the byte's value before the command
or its final value, and which one is unspecified" (log entry 6). -/
def State.racedLoad (s : State) (a : Nat) : Byte :=
  if Config.freeChoice s.coins a then (finalMemory s.schedule s).read a else s.mem.read a

/-! ## The host's turns -/

/-- A host load of one byte (R61, R258). -/
def State.hostLoadByte (s : State) (a : Nat) : State :=
  if s.inPendingOutput a then { s with hostRead := .byte (s.racedLoad a), coins := s.coins + 1 }
  else { s with hostRead := .byte (s.mem.read a) }

/-- One action of the host (R7). A poll that reads BUSY = 1 gives the core its turn and then polls again (R85, R261; log
entry 13, DEDUCED). -/
def hostTurn (act : HostAction) (s : State) : Host.Outcome State Fault Refusal :=
  match act with
  | .storeReg width addr v =>
    match s.windowOffset addr with
    | some off => .next (s.windowWrite width off v)
    | none => .refused .outsideRegisterWindow
  | .loadReg width addr =>
    match s.windowOffset addr with
    | some off => .next { s with hostRead := .reg (s.windowRead width off) }
    | none => .refused .outsideRegisterWindow
  | .poll =>
    .next { s with
      hostRead := .reg s.statusWord
      schedule := if s.busy then .core :: .host .poll :: s.schedule else s.schedule }
  | .storeByte a b => if a < s.memSize then .next (s.hostStoreByte a b) else .fault .hostByteOutsideMemory
  | .loadByte a => if a < s.memSize then .next (s.hostLoadByte a) else .fault .hostByteOutsideMemory

/-! ## The reset input (R250, R252, R253) -/

/-- Reset (R250): every register 0, the latch empty, every slot and both scratch contexts 0 and UNINIT, every datapath register 0,
"and nothing else". The parameters stay, and so does the other agent: the host's latest load and the coming turns (log entry
20, DEDUCED). -/
def State.applyReset (s : State) : State :=
  { State.resetWith ⟨s.nCtx .sha256, s.nCtx .sha512, s.memSize, s.regBase⟩ with
    mem := s.memAfterReset
    draws := s.draws + 1
    coins := s.coins
    hostRead := s.hostRead
    schedule := s.schedule }

end Sys2Proof.Machine
end

