-- ==== Sys2Proof/Machine/Step.lean ====
section
/-! DEFINITION. One step of the machine: the earliest turn of the schedule is taken; when none is left, the core moves
(spec/00_scope.md R7, spec/70_reset_and_hazards.md R261). -/

namespace Sys2Proof.Machine

/-- One step. -/
def step (s : State) : Host.Outcome State Fault Refusal :=
  match s.schedule with
  | [] => coreTurn s
  | .core :: rest => coreTurn { s with schedule := rest }
  | .reset :: rest => .next ({ s with schedule := rest } : State).applyReset
  | .host act :: rest => hostTurn act { s with schedule := rest }

/-- The state with a command word stored to CMD and the core's turn next, so that the next step executes exactly that command: the
effect of the host store of R22, with the operands latched from the registers as they stand (log entry 7). -/
def State.withFetchWord (s : State) (nbits w : Nat) : State :=
  { s.accept (BitVec.ofNat 32 (w % 2 ^ nbits)) with schedule := .core :: s.schedule }

end Sys2Proof.Machine
end

