-- ==== Sys2Proof/Machine/Assembler.lean ====
section
/-! DEFINITION. The assembler lines of spec/30_encoding.md R83, as abstract syntax, and the host sequence each stands for (R85).
A line is the host's: it assembles to turns of the schedule. -/

namespace Sys2Proof.Machine

/-- A line. A context operand is `some N` for `cN` and `none` for `null`; an address operand is `some X` for `[X]`. -/
inductive AsmLine
  | init (alg : Alg) (ctx : Option (Fin 16))
  | update (alg : Alg) (ctx : Option (Fin 16)) (a : Option DWord) (len : DWord)
  | final (alg : Alg) (ctx : Option (Fin 16)) (b : Option DWord)
  | oneshot (alg : Alg) (a : Option DWord) (len : DWord) (b : Option DWord)
  | tohex (alg : Alg) (a b : Option DWord)
  | ctcmp (alg : Alg) (a b : Option DWord)
  deriving DecidableEq, Repr

/-- CTX of a context operand: `N`, or 0 for `null` (R83). -/
def ctxField (ctx : Option (Fin 16)) : Nat := (ctx.map (·.val)).getD 0

/-- The instruction of a line (R83). -/
def AsmLine.instr : AsmLine → Instr
  | .init alg ctx => .init alg (ctxField ctx) ctx.isSome
  | .update alg ctx a _ => .update alg (ctxField ctx) a.isSome ctx.isSome
  | .final alg ctx b => .final alg (ctxField ctx) b.isSome ctx.isSome
  | .oneshot alg a _ b => .oneshot alg a.isSome b.isSome
  | .tohex alg a b => .tohex alg a.isSome b.isSome
  | .ctcmp alg a b => .ctcmp alg a.isSome b.isSome

/-- The address `A` a line uses, if it uses one. -/
def AsmLine.operandA : AsmLine → Option DWord
  | .init _ _ => none
  | .update _ _ a _ => a
  | .final _ _ _ => none
  | .oneshot _ a _ _ => a
  | .tohex _ a _ => a
  | .ctcmp _ a _ => a

/-- The address `B` a line uses, if it uses one. -/
def AsmLine.operandB : AsmLine → Option DWord
  | .init _ _ => none
  | .update _ _ _ _ => none
  | .final _ _ b => b
  | .oneshot _ _ _ b => b
  | .tohex _ _ b => b
  | .ctcmp _ _ b => b

/-- The byte count a line uses, if it uses one. -/
def AsmLine.operandLen : AsmLine → Option DWord
  | .init _ _ => none
  | .update _ _ _ len => some len
  | .final _ _ _ => none
  | .oneshot _ _ len _ => some len
  | .tohex _ _ _ => none
  | .ctcmp _ _ _ => none

/-- A host store of an aligned word at an offset of the window at `base`. -/
def storeAt (base off : Nat) (v : Word) : Turn := .host (.storeReg .word (base + off) v)

/-- "store X_LO <- X[31:0]; store X_HI <- X[63:32]", if the line uses `X` (R85). -/
def storePair (base lo : Nat) : Option DWord → List Turn
  | none => []
  | some x => [storeAt base lo (x.extractLsb' 0 32), storeAt base (lo + 4) (x.extractLsb' 32 32)]

/-- The host sequence a line stands for, with the register window at `base` (R85). -/
def AsmLine.expand (base : Nat) (line : AsmLine) : List Turn :=
  storePair base 0x08 line.operandA ++ storePair base 0x10 line.operandB ++ storePair base 0x18 line.operandLen ++
    [storeAt base 0x00 (encode line.instr), .host .poll]

end Sys2Proof.Machine
end

