-- ==== Sys2Proof/Safety.lean ====
section
/-! DEFINITION. The terms claims are made in: the invariant of the machine, what a command may leave unchanged (frames), how a
command ends, and a run whose FAULT is 0 at its end (spec/60_exceptions.md R225). -/

namespace Sys2Proof.Machine

/-! ## The invariant -/

/-- What R36 says of a context: while it is Live, `bitCount` is a multiple of 8 and `bufLen = (bitCount / 8) mod B`; otherwise the
context is all zero, as reset (R250) and every wipe (R45) leave it. -/
structure Context.Inv {alg : Alg} (c : Context alg) : Prop where
  live_counts : c.live = true →
    c.bitCount.toNat % 8 = 0 ∧ c.bufLen.val = c.bitCount.toNat / 8 % alg.blockSize
  dead_zero : c.live = false → c = { Context.zero alg with life := c.life }

/-- The invariant of the machine. -/
structure State.Inv (s : State) : Prop where
  /-- Buffer memory keeps its canonical form. -/
  memory_wf : s.mem.wf
  /-- Nothing is written outside buffer memory (R51, R52). -/
  memory_inside : ∀ x ∈ s.mem, x.1 < s.memSize
  /-- The parameters stay in the ranges of R8. -/
  parameters : (Params.mk (s.nCtx .sha256) (s.nCtx .sha512) s.memSize s.regBase).wf
  /-- The reserved codes 10 to 15 are never written (R220). -/
  err_code : s.err.toNat ≤ 9
  /-- FCAUSE reads 0 while FAULT = 0, and is 6, 7, 8 or 9 otherwise (R25). -/
  cause : if s.fault then 6 ≤ s.fcause.toNat ∧ s.fcause.toNat ≤ 9 else s.fcause = 0
  /-- What is pending is what the registers hold: none of them can change while BUSY = 1 (R22, R224). -/
  latched : ∀ p ∈ s.pend, p = s.latch s.cmd
  /-- Only a pending command can be raced. -/
  idle_unraced : s.pend = none → s.raced = []
  /-- Each raced address is listed once, and exists. -/
  raced_wf : s.raced.Nodup ∧ ∀ a ∈ s.raced, a < s.memSize
  /-- Every datapath register is zero between commands (R40, R117). -/
  datapaths_clear : ∀ alg, s.datapath alg = Datapath.zero alg
  /-- A scratch context holds nothing between commands (R41). -/
  scratch_dead : ∀ alg, (s.scratch alg).live = false ∧ (s.scratch alg).Inv
  /-- Every slot keeps R36. -/
  slots_inv : ∀ alg, ∀ c ∈ s.slots alg, c.Inv

/-! ## How a command ends, and what it leaves unchanged -/

/-- A command ended with a code: ERR holds it, BUSY reads 0 and the latch is empty (R222, R223). -/
def Ended (t : State) (code : StatusCode) : Prop := t.err = code.code ∧ t.pend = none

/-- The host-visible registers a command never writes: CMD, ARG_A, ARG_B, LEN (R22, R27 to R29). -/
def SameRegisters (s t : State) : Prop :=
  t.cmd = s.cmd ∧ t.argALo = s.argALo ∧ t.argAHi = s.argAHi ∧ t.argBLo = s.argBLo ∧ t.argBHi = s.argBHi ∧
    t.lenLo = s.lenLo ∧ t.lenHi = s.lenHi

/-- FAULT and FCAUSE. -/
def SameFaultRecord (s t : State) : Prop := t.fault = s.fault ∧ t.fcause = s.fcause

/-- A fault is recorded: FAULT is 1, and FCAUSE holds the first fault's code (R223). -/
def FaultRecorded (s t : State) (code : StatusCode) : Prop :=
  t.fault = true ∧ t.fcause = bif s.fault then s.fcause else code.code

/-- Every context slot of both banks. -/
def SameSlots (s t : State) : Prop := t.slots256 = s.slots256 ∧ t.slots512 = s.slots512

/-- Every slot of both banks but `slot(alg, i)`; the banks keep their sizes (R147). -/
def OnlySlot (alg : Alg) (i : Nat) (s t : State) : Prop :=
  (∀ alg', t.nCtx alg' = s.nCtx alg') ∧
    ∀ alg' j, (alg' = alg → j ≠ i) → (t.slots alg')[j]? = (s.slots alg')[j]?

/-- Every byte of buffer memory. -/
def SameMemory (s t : State) : Prop := ∀ a, t.mem.read a = s.mem.read a

/-- Every byte of buffer memory outside `n` bytes at `addr`. -/
def OnlyBytes (addr n : Nat) (s t : State) : Prop := ∀ a, ¬(addr ≤ a ∧ a < addr + n) → t.mem.read a = s.mem.read a

/-- The `n` bytes at `addr` are `bs`. -/
def HoldsBytes (t : State) (addr : Nat) (bs : List Byte) : Prop :=
  ∀ k, (h : k < bs.length) → t.mem.read (addr + k) = bs[k]

/-- `take` is what a command may take each byte of buffer memory as: the byte as it stands, or, where the host wrote it while the
command was pending, any value (R257). It is one value for each byte. -/
def MayTake (s : State) (take : Nat → Byte) : Prop := ∀ a, a ∉ s.raced → take a = s.mem.read a

/-- The `n` bytes at `addr`, each taken as `take` says. -/
def takenAt (take : Nat → Byte) (addr n : Nat) : List Byte := (List.range n).map fun k => take (addr + k)

/-- Each byte at `addr` ends as the command's, or, only where the host wrote it while it was pending, as the host's (R258). -/
def EndsAs (s t : State) (addr : Nat) (bs : List Byte) : Prop :=
  ∀ k, (h : k < bs.length) → t.mem.read (addr + k) = bs[k] ∨
    (addr + k ∈ s.raced ∧ t.mem.read (addr + k) = s.mem.read (addr + k))

/-- The hidden state that is no slot: the scratch contexts and the datapaths (R40, R41). -/
def SameHidden (s t : State) : Prop :=
  (∀ alg, t.scratch alg = s.scratch alg) ∧ ∀ alg, t.datapath alg = s.datapath alg

/-- The hidden state after a command that ran compressions of `alg`: its datapath is clear (R117), the rest is as before. -/
def OnlyDatapathCleared (alg : Alg) (s t : State) : Prop :=
  (∀ alg', t.scratch alg' = s.scratch alg') ∧ t.datapath alg = Datapath.zero alg ∧
    ∀ alg', alg' ≠ alg → t.datapath alg' = s.datapath alg'

/-- A context holds nothing: every field 0, and FINALIZED (R45). -/
def Wiped {alg : Alg} (c : Context alg) : Prop := c = { Context.zero alg with life := .finalized }

/-- The hidden state after a ONESHOT of `alg`: its scratch context is wiped (R41); the other algorithm's hidden state is as
before; its own datapath is clear, or was not used. -/
def OnlyScratchWiped (alg : Alg) (s t : State) : Prop :=
  Wiped (t.scratch alg) ∧ (t.datapath alg = Datapath.zero alg ∨ t.datapath alg = s.datapath alg) ∧
    ∀ alg', alg' ≠ alg → t.scratch alg' = s.scratch alg' ∧ t.datapath alg' = s.datapath alg'

/-- The parameters, the host agent and the coming turns. -/
def SamePlatform (s t : State) : Prop :=
  t.memSize = s.memSize ∧ t.regBase = s.regBase ∧ t.hostRead = s.hostRead ∧ t.schedule = s.schedule

/-- The `n` bytes of buffer memory at `addr`, as they stand (R51). -/
def State.bytesAt (s : State) (addr n : Nat) : List Byte := (List.range n).map fun k => s.mem.read (addr + k)

/-- A state in which the host has written `A` and `LEN` to the argument registers. -/
def State.withOperands (s : State) (A LEN : DWord) : State :=
  { s with
    argALo := A.extractLsb' 0 32
    argAHi := A.extractLsb' 32 32
    lenLo := LEN.extractLsb' 0 32
    lenHi := LEN.extractLsb' 32 32 }

/-- The slot an instruction names, if it names one (R147). -/
def Instr.namedSlot : Instr → Option (Alg × Nat)
  | .init256 ctx _ => some (.sha256, ctx)
  | .init512 ctx _ => some (.sha512, ctx)
  | .update256 ctx _ _ => some (.sha256, ctx)
  | .update512 ctx _ _ => some (.sha512, ctx)
  | .final256 ctx _ _ => some (.sha256, ctx)
  | .final512 ctx _ _ => some (.sha512, ctx)
  | .oneshot256 _ _ => none
  | .oneshot512 _ _ => none
  | .tohex256 _ _ => none
  | .tohex512 _ _ => none
  | .ctcmp256 _ _ => none
  | .ctcmp512 _ _ => none

/-! ## Whose turn it is -/

/-- The core moves next, and these turns are left after that: its turn is the earliest of the schedule, or no turn is left. -/
def CoreNext (s : State) (rest : List Turn) : Prop := s.schedule = .core :: rest ∨ s.schedule = [] ∧ rest = []

/-- `u` is the state right after the command that is pending in `s` is over: the core completed it, or a reset abandoned it. -/
inductive CommandOver : State → State → Prop
  /-- This step ends it. -/
  | now {s u : State} (pending : s.pend ≠ none) (first : step s = .next u) (ended : u.pend = none) : CommandOver s u
  /-- This step leaves it pending. -/
  | later {s t u : State} (pending : s.pend ≠ none) (first : step s = .next t) (still : t.pend ≠ none) (rest : CommandOver t u) :
      CommandOver s u

/-! ## Lifecycle (R37) -/

/-- The edges of the lifecycle a command may take a slot along (R37's table, with INIT, UPDATE and FINAL as it names them). -/
inductive LifeEdge : Life → Life → Prop
  /-- "unchanged". -/
  | stay (l : Life) : LifeEdge l l
  /-- INIT, OK, from any state. -/
  | init (l : Life) : LifeEdge l .ready
  /-- UPDATE, OK, from READY. -/
  | updateReady : LifeEdge .ready .accum
  /-- A wipe: FINAL (OK or NullOutput), or UPDATE with CounterOverflow. -/
  | wiped (l : Life) : LifeEdge l .finalized

/-! ## Runs -/

/-- `n` steps that all answer a next state lead from `s` to `t`. -/
inductive Run : Nat → State → State → Prop
  | done (s : State) : Run 0 s s
  | more {n : Nat} {s t u : State} (first : step s = .next t) (rest : Run n t u) : Run (n + 1) s u

/-- R225: a claim about a run assumes FAULT = 0 at its end. -/
def CleanRun (n : Nat) (s t : State) : Prop := Run n s t ∧ t.fault = false

/-- An assembler line's operands are in the argument registers, as its stores leave them (R85). -/
def AsmLine.loaded (line : AsmLine) (s : State) : State :=
  let s1 := match line.operandA with
    | none => s
    | some x => { s with argALo := x.extractLsb' 0 32, argAHi := x.extractLsb' 32 32 }
  let s2 := match line.operandB with
    | none => s1
    | some x => { s1 with argBLo := x.extractLsb' 0 32, argBHi := x.extractLsb' 32 32 }
  match line.operandLen with
    | none => s2
    | some x => { s2 with lenLo := x.extractLsb' 0 32, lenHi := x.extractLsb' 32 32 }

end Sys2Proof.Machine
end

