-- ==== Sys2Proof/Certificates/Slice0/Obligations.lean ====
section
/-! DEFINITION. The statements for the provers. Each says which rules of the spec it formalises. `exec … = .next t` with
`s.raced = []` is a command whose buffers the host left alone while it was pending (spec/70_reset_and_hazards.md R257, R258);
the statements named Raced… say what happens otherwise. -/

open Sys2Proof Sys2Proof.Machine

/-! ## The encoding (spec/30_encoding.md) -/

/-- Encoding then decoding gives the instruction back (R70 to R76). -/
def Obligations.DecodeOfEncodeIsTheInstruction : Prop :=
  ∀ i : Instr, i.WellFormed → decode (encode i) = .ok i

/-- A word that decodes is the encoding of what it decodes to: no bit of it is dropped (R70 to R76). -/
def Obligations.EncodeOfDecodeIsTheWord : Prop :=
  ∀ (v : Word) (i : Instr), decode v = .ok i → i.WellFormed ∧ encode i = v

/-- R80: a word is a command exactly when it matches one row of the opcode map, and that row is the instruction's (R86). -/
def Obligations.WordIsACommandExactlyWhenItMatchesOneRow : Prop :=
  (∀ v : Word, (∃ i, decode v = .ok i) ↔ ∃ r ∈ opcodeRows, r.matches v = true ∧ ∀ r' ∈ opcodeRows, r'.matches v = true → r' = r) ∧
    ∀ (v : Word) (i : Instr), decode v = .ok i → i.row ∈ opcodeRows ∧ i.row.matches v = true

/-- R86's worked encodings, read by the decoder. -/
def Obligations.WorkedEncodingsDecode : Prop :=
  decode 0x00004000 = .ok (.init256 0 true) ∧ decode 0x00004210 = .ok (.init512 2 true) ∧
    decode 0x00005001 = .ok (.update256 0 true true) ∧ decode 0x00006002 = .ok (.final256 0 true true) ∧
    decode 0x00003013 = .ok (.oneshot512 true true) ∧ decode 0x00003004 = .ok (.tohex256 true true) ∧
    decode 0x00003015 = .ok (.ctcmp512 true true)

/-- R75 and R76: a set bit in [7:5] or [31:15], or in a field the operation does not use, is illegal. -/
def Obligations.ReservedAndUnusedFieldsAreIllegal : Prop :=
  ∀ v : Word,
    (∀ k, (5 ≤ k ∧ k ≤ 7 ∨ 15 ≤ k ∧ k ≤ 31) → v.getLsbD k = true → ∃ e, decode v = .error e) ∧
    (v.extractLsb' 0 4 = 0 → v.getLsbD 12 = true ∨ v.getLsbD 13 = true → ∃ e, decode v = .error e) ∧
    (v.extractLsb' 0 4 = 1 → v.getLsbD 13 = true → ∃ e, decode v = .error e) ∧
    (v.extractLsb' 0 4 = 2 → v.getLsbD 12 = true → ∃ e, decode v = .error e) ∧
    (v.extractLsb' 0 4 = 3 ∨ v.extractLsb' 0 4 = 4 ∨ v.extractLsb' 0 4 = 5 →
      v.extractLsb' 8 4 ≠ 0 ∨ v.getLsbD 14 = true → ∃ e, decode v = .error e)

/-! ## The core's turn -/

/-- When the core's turn comes with a pending word that decodes, the step is `exec` of that instruction. So is the step that
follows a store of the instruction's word to CMD. The turns that come later are left in the schedule. That an empty schedule lets the
core move, and what `withFetchWord` stands for, is the model's choice (log entry 7, DESIGN CHOICE). -/
def Obligations.StepRunsTheDecodedCommand : Prop :=
  (∀ (s : State) (p : Latch) (i : Instr) (rest : List Turn), s.pend = some p → decode p.word = .ok i →
    (s.schedule = .core :: rest → step s = exec i { s with schedule := rest }) ∧ (s.schedule = [] → step s = exec i s)) ∧
  ∀ (s : State) (i : Instr) (w : Nat), w < 2 ^ 32 → decode (BitVec.ofNat 32 w) = .ok i →
    step (s.withFetchWord 32 w) = exec i (s.accept (BitVec.ofNat 32 w))

/-- R81: an illegal word completes with the IllegalCommand fault and changes nothing but STATUS, at a turn of the core that the
schedule gives or, by log entry 7, at one that comes with no turn left; OP 6 to 15 is illegal. -/
def Obligations.IllegalWordCompletesWithIllegalCommand : Prop :=
  (∀ (s : State) (p : Latch) (e : Illegal) (rest : List Turn), s.pend = some p → decode p.word = .error e → CoreNext s rest →
    ∃ t, step s = .next t ∧ Ended t .illegalCommand ∧ FaultRecorded s t .illegalCommand ∧ SameRegisters s t ∧
      SameSlots s t ∧ SameMemory s t ∧ t.eq = s.eq ∧ SameHidden s t ∧ SamePlatform { s with schedule := rest } t) ∧
  ∀ v : Word, 6 ≤ (v.extractLsb' 0 4).toNat → ∃ e, decode v = .error e

/-- R222 and R223: how a pending command ends, at a turn of the core that the schedule gives or, by log entry 7, at one that comes with
no turn left. An error or OK leaves FAULT and FCAUSE alone; a fault records itself, puts its code in ERR, and writes no slot,
buffer-memory byte or RESULT. Either way BUSY reads 0 afterwards, and no byte counts as raced any more (log entry 4). -/
def Obligations.PendingCommandEndsByCompleteOrFault : Prop :=
  ∀ (s : State) (p : Latch) (rest : List Turn), s.pend = some p → CoreNext s rest →
    ∃ t code, step s = .next t ∧ code ≠ StatusCode.busyWrite ∧ Ended t code ∧ t.busy = false ∧ t.raced = [] ∧ t.schedule = rest ∧
      (code.code.toNat ≤ 5 → SameFaultRecord s t) ∧
      (6 ≤ code.code.toNat → FaultRecorded s t code ∧ SameSlots s t ∧ SameMemory s t ∧ t.eq = s.eq)

/-! ## INIT, UPDATE, FINAL (spec/41_hasher.md) -/

/-- INIT on a valid handle, in any lifecycle state (R143). -/
def Obligations.InitLoadsTheInitialState : Prop :=
  ∀ (alg : Alg) (ctx : Nat) (s : State), ctx < s.nCtx alg →
    ∃ t c, exec (.init alg ctx true) s = .next t ∧ (t.slots alg)[ctx]? = some c ∧ c.H = initialState alg ∧ c.bitCount = 0 ∧
      (∀ b ∈ c.buf.toList, b = 0) ∧ c.bufLen.val = 0 ∧ c.life = .ready ∧
      OnlySlot alg ctx s t ∧ Ended t .ok ∧ SameRegisters s t ∧ SameFaultRecord s t ∧ t.eq = s.eq ∧ SameMemory s t ∧
      SameHidden s t ∧ SamePlatform s t

/-- INIT, UPDATE and FINAL on an invalid handle complete with NullContext and change no slot at all (R78, R147). -/
def Obligations.InvalidHandleCompletesWithNullContext : Prop :=
  ∀ (alg : Alg) (ctx : Nat) (pa pb pc : Bool) (s : State), ¬(pc = true ∧ ctx < s.nCtx alg) →
    ∀ i, i = Instr.init alg ctx pc ∨ i = Instr.update alg ctx pa pc ∨ i = Instr.final alg ctx pb pc →
      ∃ t, exec i s = .next t ∧ Ended t .nullContext ∧ SameSlots s t ∧ SameRegisters s t ∧ SameFaultRecord s t ∧
        t.eq = s.eq ∧ SameMemory s t ∧ SameHidden s t ∧ SamePlatform s t

/-- UPDATE of a Live slot, past its checks (R144): `bitCount` grows by 8·LEN without wrapping, the bytes at `A` are absorbed as
R140 says, and nothing else changes. -/
def Obligations.UpdateAppendsTheDataBytes : Prop :=
  ∀ (alg : Alg) (ctx : Nat) (c : Context alg) (s : State), (s.slots alg)[ctx]? = some c → c.live = true → 0 < s.opLen →
    c.bitCount.toNat + 8 * s.opLen ≤ 2 ^ alg.counterWidth - 1 → s.opA + s.opLen ≤ s.memSize → s.raced = [] →
    ∃ t c', exec (.update alg ctx true true) s = .next t ∧ (t.slots alg)[ctx]? = some c' ∧
      c'.bitCount.toNat = c.bitCount.toNat + 8 * s.opLen ∧ c'.life = .accum ∧
      c'.H = (c.absorbByBlocks (s.bytesAt s.opA s.opLen)).H ∧
      c'.pending = (c.absorbByBlocks (s.bytesAt s.opA s.opLen)).pending ∧
      OnlySlot alg ctx s t ∧ Ended t .ok ∧ SameRegisters s t ∧ SameFaultRecord s t ∧ t.eq = s.eq ∧ SameMemory s t ∧
      OnlyDatapathCleared alg s t ∧ SamePlatform s t

/-- A zero-length UPDATE of a Live slot succeeds, with or without a data operand, and only makes the slot ACCUM (R144, D12). -/
def Obligations.ZeroLengthUpdateOnlyMovesLife : Prop :=
  ∀ (alg : Alg) (ctx : Nat) (pa : Bool) (c : Context alg) (s : State), (s.slots alg)[ctx]? = some c → c.live = true →
    s.opLen = 0 →
    ∃ t, exec (.update alg ctx pa true) s = .next t ∧ (t.slots alg)[ctx]? = some { c with life := .accum } ∧
      OnlySlot alg ctx s t ∧ Ended t .ok ∧ SameRegisters s t ∧ SameFaultRecord s t ∧ t.eq = s.eq ∧ SameMemory s t ∧
      SameHidden s t ∧ SamePlatform s t

/-- UPDATE without a data operand and with LEN > 0 completes with NullData; the slot stays as it was, in any lifecycle state
(R144, R37). -/
def Obligations.UpdateWithoutDataLeavesTheSlot : Prop :=
  ∀ (alg : Alg) (ctx : Nat) (s : State), ctx < s.nCtx alg → 0 < s.opLen →
    ∃ t, exec (.update alg ctx false true) s = .next t ∧ Ended t .nullData ∧ SameSlots s t ∧ SameRegisters s t ∧
      SameFaultRecord s t ∧ t.eq = s.eq ∧ SameMemory s t ∧ SameHidden s t ∧ SamePlatform s t

/-- UPDATE and FINAL on a slot that is UNINIT or FINALIZED are a ContractViolation fault, past the presence checks that come
first, and change no slot (R144, R145, R226). -/
def Obligations.DeadSlotIsAContractViolation : Prop :=
  ∀ (alg : Alg) (ctx : Nat) (pa : Bool) (c : Context alg) (s : State), (s.slots alg)[ctx]? = some c → c.live = false →
    ∀ i, (i = Instr.update alg ctx pa true ∧ (pa = true ∨ s.opLen = 0)) ∨ i = Instr.final alg ctx true true →
      ∃ t, exec i s = .next t ∧ Ended t .contractViolation ∧ FaultRecorded s t .contractViolation ∧ SameSlots s t ∧
        SameRegisters s t ∧ t.eq = s.eq ∧ SameMemory s t ∧ SameHidden s t ∧ SamePlatform s t

/-- UPDATE that would exceed the counter wipes its slot and completes with CounterOverflow (R144, R45, D11). -/
def Obligations.CounterOverflowWipesTheSlot : Prop :=
  ∀ (alg : Alg) (ctx : Nat) (c : Context alg) (s : State), (s.slots alg)[ctx]? = some c → c.live = true → 0 < s.opLen →
    2 ^ alg.counterWidth - 1 < c.bitCount.toNat + 8 * s.opLen →
    ∃ t c', exec (.update alg ctx true true) s = .next t ∧ (t.slots alg)[ctx]? = some c' ∧ Wiped c' ∧
      OnlySlot alg ctx s t ∧ Ended t .counterOverflow ∧ SameRegisters s t ∧ SameFaultRecord s t ∧ t.eq = s.eq ∧
      SameMemory s t ∧ SameHidden s t ∧ SamePlatform s t

/-- FINAL of a Live slot writes the `D` bytes of its digest at `B`, and only them, and wipes the slot (R145, R185). -/
def Obligations.FinalWritesTheDigestAndWipes : Prop :=
  ∀ (alg : Alg) (ctx : Nat) (c : Context alg) (s : State), (s.slots alg)[ctx]? = some c → c.live = true →
    s.opB + alg.digestSize ≤ s.memSize → s.raced = [] →
    ∃ t c', exec (.final alg ctx true true) s = .next t ∧ c.finalize.length = alg.digestSize ∧ HoldsBytes t s.opB c.finalize ∧
      OnlyBytes s.opB alg.digestSize s t ∧ (t.slots alg)[ctx]? = some c' ∧ Wiped c' ∧ OnlySlot alg ctx s t ∧ Ended t .ok ∧
      SameRegisters s t ∧ SameFaultRecord s t ∧ t.eq = s.eq ∧ OnlyDatapathCleared alg s t ∧ SamePlatform s t

/-- FINAL without an output operand wipes its slot, in any lifecycle state, and completes with NullOutput (R145, D10). -/
def Obligations.FinalWithoutOutputWipesTheSlot : Prop :=
  ∀ (alg : Alg) (ctx : Nat) (s : State), ctx < s.nCtx alg →
    ∃ t c', exec (.final alg ctx false true) s = .next t ∧ (t.slots alg)[ctx]? = some c' ∧ Wiped c' ∧ OnlySlot alg ctx s t ∧
      Ended t .nullOutput ∧ SameRegisters s t ∧ SameFaultRecord s t ∧ t.eq = s.eq ∧ SameMemory s t ∧ SameHidden s t ∧
      SamePlatform s t

/-! ## ONESHOT, TOHEX, CTCMP -/

/-- ONESHOT writes the digest of the `LEN` bytes at `A`, as they were before, at `B`, and only it; it changes no slot (R146, R60). -/
def Obligations.OneshotWritesTheDigestOfItsInput : Prop :=
  ∀ (alg : Alg) (pa : Bool) (s : State), (pa = true ∨ s.opLen = 0) → 8 * s.opLen ≤ 2 ^ alg.counterWidth - 1 →
    (s.opLen = 0 ∨ s.opA + s.opLen ≤ s.memSize) → s.opB + alg.digestSize ≤ s.memSize → s.raced = [] →
    ∃ t, exec (.oneshot alg pa true) s = .next t ∧
      HoldsBytes t s.opB ((Context.init alg).append (s.bytesAt s.opA s.opLen)).finalize ∧
      ((Context.init alg).append (s.bytesAt s.opA s.opLen)).finalize.length = alg.digestSize ∧
      OnlyBytes s.opB alg.digestSize s t ∧ SameSlots s t ∧ Ended t .ok ∧ SameRegisters s t ∧ SameFaultRecord s t ∧
      t.eq = s.eq ∧ OnlyScratchWiped alg s t ∧ SamePlatform s t

/-- ONESHOT's errors: NullData first, then CounterOverflow (SHA256 only, for LEN ≥ 2^61), then, past the data range check,
NullOutput. Every one wipes the scratch context, and changes no slot and no byte (R146, D22). -/
def Obligations.OneshotErrorsLeaveNothingBehind : Prop :=
  ∀ (alg : Alg) (pa pb : Bool) (s : State) (code : StatusCode),
    (pa = false ∧ 0 < s.opLen ∧ code = .nullData) ∨
    (pa = true ∧ alg = .sha256 ∧ 2 ^ 61 ≤ s.opLen ∧ code = .counterOverflow) ∨
    ((pa = true ∨ s.opLen = 0) ∧ pb = false ∧ 8 * s.opLen ≤ 2 ^ alg.counterWidth - 1 ∧
      (s.opLen = 0 ∨ s.opA + s.opLen ≤ s.memSize) ∧ code = .nullOutput) →
    ∃ t, exec (.oneshot alg pa pb) s = .next t ∧ Ended t code ∧ OnlyScratchWiped alg s t ∧ SameSlots s t ∧ SameMemory s t ∧
      SameRegisters s t ∧ SameFaultRecord s t ∧ t.eq = s.eq ∧ SamePlatform s t

/-- A command that reaches its range check with a range outside buffer memory completes with the BusError fault; it reads and
writes no buffer memory and changes no slot (R52). ONESHOT tests its data range with or without an output operand, and its output
range with or without a data operand; it wipes its scratch context (R41, R146), and the other commands leave the hidden state as it
was. That a command reads no memory is said in the model's own list of accesses (log entry 5), and of ONESHOT's output range it is
the reading of log entry 11. -/
def Obligations.RangeOutsideMemoryIsABusError : Prop :=
  ∀ (alg : Alg) (ctx : Nat) (pa pb : Bool) (c : Context alg) (s : State) (i : Instr),
    (i = .update alg ctx true true ∧ (s.slots alg)[ctx]? = some c ∧ c.live = true ∧ 0 < s.opLen ∧
      c.bitCount.toNat + 8 * s.opLen ≤ 2 ^ alg.counterWidth - 1 ∧ s.memSize < s.opA + s.opLen) ∨
    (i = .final alg ctx true true ∧ (s.slots alg)[ctx]? = some c ∧ c.live = true ∧ s.memSize < s.opB + alg.digestSize) ∨
    (i = .oneshot alg pa pb ∧ (pa = true ∨ s.opLen = 0) ∧ 8 * s.opLen ≤ 2 ^ alg.counterWidth - 1 ∧
      ((0 < s.opLen ∧ s.memSize < s.opA + s.opLen) ∨ (pb = true ∧ s.memSize < s.opB + alg.digestSize))) ∨
    (i = .tohex alg true true ∧ (s.memSize < s.opA + alg.digestSize ∨ s.memSize < s.opB + 2 * alg.digestSize)) ∨
    (i = .ctcmp alg true true ∧ (s.memSize < s.opA + alg.digestSize ∨ s.memSize < s.opB + alg.digestSize)) →
    ∃ t, exec i s = .next t ∧ Ended t .busError ∧ FaultRecorded s t .busError ∧ t.accesses = [] ∧ SameSlots s t ∧
      SameMemory s t ∧ SameRegisters s t ∧ t.eq = s.eq ∧ SamePlatform s t ∧
      (i = .oneshot alg pa pb → OnlyScratchWiped alg s t) ∧ (i ≠ .oneshot alg pa pb → SameHidden s t)

/-- TOHEX writes the `2·D` characters of the `D` bytes at `A`, as they were before, at `B`, and only them (R202, R60). -/
def Obligations.TohexWritesTheCharacters : Prop :=
  ∀ (alg : Alg) (s : State), s.opA + alg.digestSize ≤ s.memSize → s.opB + 2 * alg.digestSize ≤ s.memSize → s.raced = [] →
    ∃ t, exec (.tohex alg true true) s = .next t ∧ HoldsBytes t s.opB (toHex (s.bytesAt s.opA alg.digestSize)) ∧
      (toHex (s.bytesAt s.opA alg.digestSize)).length = 2 * alg.digestSize ∧ OnlyBytes s.opB (2 * alg.digestSize) s t ∧
      SameSlots s t ∧ Ended t .ok ∧ SameRegisters s t ∧ SameFaultRecord s t ∧ t.eq = s.eq ∧ SameHidden s t ∧ SamePlatform s t

/-- CTCMP sets EQ to whether the `D` bytes at `A` and the `D` bytes at `B` are the same, and changes nothing else (R204). -/
def Obligations.CtcmpSetsEqToEquality : Prop :=
  ∀ (alg : Alg) (s : State), s.opA + alg.digestSize ≤ s.memSize → s.opB + alg.digestSize ≤ s.memSize → s.raced = [] →
    ∃ t, exec (.ctcmp alg true true) s = .next t ∧
      (t.eq = true ↔ ∀ k < alg.digestSize, s.mem.read (s.opA + k) = s.mem.read (s.opB + k)) ∧
      SameSlots s t ∧ SameMemory s t ∧ Ended t .ok ∧ SameRegisters s t ∧ SameFaultRecord s t ∧ SameHidden s t ∧
      SamePlatform s t

/-- TOHEX and CTCMP without one of their operands complete with NullInput; no memory is accessed, and CTCMP clears EQ (R202, R204,
R30). -/
def Obligations.AbsentInputCompletesWithNullInput : Prop :=
  ∀ (alg : Alg) (pa pb : Bool) (s : State), ¬(pa = true ∧ pb = true) →
    (∃ t, exec (.tohex alg pa pb) s = .next t ∧ Ended t .nullInput ∧ t.eq = s.eq ∧ t.accesses = [] ∧ SameSlots s t ∧
      SameMemory s t ∧ SameRegisters s t ∧ SameFaultRecord s t ∧ SameHidden s t ∧ SamePlatform s t) ∧
    ∃ t, exec (.ctcmp alg pa pb) s = .next t ∧ Ended t .nullInput ∧ t.eq = false ∧ t.accesses = [] ∧ SameSlots s t ∧
      SameMemory s t ∧ SameRegisters s t ∧ SameFaultRecord s t ∧ SameHidden s t ∧ SamePlatform s t

/-- The access pattern of each command that completes with OK (R58), and of CTCMP whatever the bytes are (R205). The list of
accesses is the model's own field (log entry 5). -/
def Obligations.CommandsAccessExactlyTheirRanges : Prop :=
  ∀ (i : Instr) (s t : State), exec i s = .next t → t.err = 0 →
    match i with
    | .init256 _ _ => t.accesses = []
    | .init512 _ _ => t.accesses = []
    | .update256 _ _ _ => t.accesses = if s.opLen = 0 then [] else [.read s.opA s.opLen]
    | .update512 _ _ _ => t.accesses = if s.opLen = 0 then [] else [.read s.opA s.opLen]
    | .final256 _ _ _ => t.accesses = [.write s.opB 32]
    | .final512 _ _ _ => t.accesses = [.write s.opB 64]
    | .oneshot256 _ _ => t.accesses = (if s.opLen = 0 then [] else [.read s.opA s.opLen]) ++ [.write s.opB 32]
    | .oneshot512 _ _ => t.accesses = (if s.opLen = 0 then [] else [.read s.opA s.opLen]) ++ [.write s.opB 64]
    | .tohex256 _ _ => t.accesses = [.read s.opA 32, .write s.opB 64]
    | .tohex512 _ _ => t.accesses = [.read s.opA 64, .write s.opB 128]
    | .ctcmp256 _ _ => t.accesses = [.read s.opA 32, .read s.opB 32]
    | .ctcmp512 _ _ => t.accesses = [.read s.opA 64, .read s.opB 64]

/-! ## The functions the commands are made of -/

/-- R203: the accumulator is 0 exactly when the sequences are equal. -/
def Obligations.AccumulatorIsZeroExactlyOnEqualBytes : Prop :=
  ∀ x y : List Byte, x.length = y.length → (ctEq x y = true ↔ x = y)

/-- R201 and R200: two characters a byte, high nibble first, byte 0 first, no terminator; digit `v` is `0123456789abcdef` at `v`. -/
def Obligations.HexRendersHighNibbleFirst : Prop :=
  ∀ d : List Byte, (toHex d).length = 2 * d.length ∧
    ∀ i, (h : i < d.length) →
      (toHex d)[2 * i]? = some (hexDigit (d[i].extractLsb' 4 4)) ∧
      (toHex d)[2 * i + 1]? = some (hexDigit (d[i].extractLsb' 0 4)) ∧
      (∀ v : BitVec 4, (v.toNat < 10 → hexDigit v = BitVec.ofNat 8 (0x30 + v.toNat)) ∧
        (10 ≤ v.toNat → hexDigit v = BitVec.ofNat 8 (0x61 + (v.toNat - 10))))

/-- R9's rotation: bit `i` of `ROTR_w(x, n)` is bit `(i + n) mod w` of `x`. -/
def Obligations.RotationMovesEveryBit : Prop :=
  ∀ (w : Nat) (x : BitVec w) (n i : Nat), 0 < n → n < w → i < w → (rotr x n).getLsbD i = x.getLsbD ((i + n) % w)

/-- R9's byte order: a word read from `w/8` bytes is `Σ s[k]·2^(8·(w/8 − 1 − k))`, and `toBE` is its inverse. -/
def Obligations.BigEndianBytesAndWordsAgree : Prop :=
  (∀ (alg : Alg) (bs : List Byte), bs.length = alg.w / 8 →
    (wordOfBytes alg bs).toNat = ((List.range (alg.w / 8)).map fun k => (bs.getD k 0).toNat * 2 ^ (8 * (alg.w / 8 - 1 - k))).sum) ∧
  ∀ (alg : Alg) (x : BitVec alg.w), wordOfBytes alg (bytesOfNat (alg.w / 8) x.toNat) = x

/-- R112, R113, R122: the schedule has `R` words; the first 16 are the block's big-endian words, and each later one is given by
the recurrence over the words at offsets −2, −7, −15 and −16. -/
def Obligations.ScheduleFollowsTheRecurrence : Prop :=
  ∀ (alg : Alg) (M : List Byte), M.length = alg.blockSize →
    (messageSchedule alg M).length = alg.rounds ∧
    (∀ j < 16, (messageSchedule alg M).getD j 0 = wordOfBytes alg ((M.drop (j * (alg.w / 8))).take (alg.w / 8))) ∧
    ∀ j, 16 ≤ j → j < alg.rounds →
      (messageSchedule alg M).getD j 0 =
        smallSigma1 alg ((messageSchedule alg M).getD (j - 2) 0) + (messageSchedule alg M).getD (j - 7) 0 +
          smallSigma0 alg ((messageSchedule alg M).getD (j - 15) 0) + (messageSchedule alg M).getD (j - 16) 0

/-- R114 to R116: the compression function is `R` rounds from the seeded working variables, in increasing order of the schedule,
added back into the state words. -/
def Obligations.CompressionIsTheRoundsInOrder : Prop :=
  ∀ (alg : Alg) (H : Vector (BitVec alg.w) 8) (M : List Byte),
    ∃ v : Nat → WorkVars alg,
      v 0 = ⟨H[0], H[1], H[2], H[3], H[4], H[5], H[6], H[7]⟩ ∧
      (∀ t < alg.rounds,
        let T1 := (v t).h + bigSigma1 alg (v t).e + ch (v t).e (v t).f (v t).g + (roundConstants alg).getD t 0 +
          (messageSchedule alg M).getD t 0
        let T2 := bigSigma0 alg (v t).a + maj (v t).a (v t).b (v t).c
        v (t + 1) = ⟨T1 + T2, (v t).a, (v t).b, (v t).c, (v t).d + T1, (v t).e, (v t).f, (v t).g⟩) ∧
      compress alg H M = #v[H[0] + (v alg.rounds).a, H[1] + (v alg.rounds).b, H[2] + (v alg.rounds).c,
        H[3] + (v alg.rounds).d, H[4] + (v alg.rounds).e, H[5] + (v alg.rounds).f, H[6] + (v alg.rounds).g,
        H[7] + (v alg.rounds).h]

/-- R100 and R117: compression on a datapath gives the pure function's words whatever the datapath held, and leaves every datapath
register zero. -/
def Obligations.CompressionIsPureAndClears : Prop :=
  ∀ (alg : Alg) (dp : Datapath alg) (H : Vector (BitVec alg.w) 8) (M : List Byte),
    (dp.compress H M).1 = compress alg H M ∧ (dp.compress H M).2 = Datapath.zero alg

/-- R141: absorbing byte by byte gives what R140's block form gives; it compresses exactly `floor((bufLen + n)/B)` blocks; and from
a fresh context it is the fold of the compression over the blocks of the whole stream. `bitCount` is not changed. -/
def Obligations.AbsorbByBytesIsAbsorbByBlocks : Prop :=
  (∀ (alg : Alg) (c : Context alg) (data : List Byte),
    (c.absorb data).H = (c.absorbByBlocks data).H ∧ (c.absorb data).pending = (c.absorbByBlocks data).pending ∧
    (c.absorb data).bufLen.val = (c.absorbByBlocks data).pending.length ∧ (c.absorb data).bitCount = c.bitCount ∧
    (c.absorb data).H = compressBlocks alg ((c.bufLen.val + data.length) / alg.blockSize) c.H (c.pending ++ data)) ∧
  ∀ (alg : Alg) (S : List Byte),
    ((Context.init alg).absorb S).H = compressBlocks alg (S.length / alg.blockSize) (initialState alg) S ∧
    ((Context.init alg).absorb S).pending = S.drop (S.length - S.length % alg.blockSize)

/-- R142: the counter check in bits is the byte bound of the source, for a counter that is a multiple of 8 (R36). -/
def Obligations.CounterCheckIsTheByteBound : Prop :=
  ∀ bc n : Nat, bc % 8 = 0 →
    (counterFits .sha256 bc n = true ↔ bc / 8 + n ≤ 2 ^ 61 - 1) ∧ (counterFits .sha512 bc n = true ↔ bc / 8 + n ≤ 2 ^ 125 - 1)

/-- R182: the bounds of the zero-fill and the length of the padding tail, in the fitting and in the extra-block case. -/
def Obligations.PaddingEndsAtABlockBoundary : Prop :=
  ∀ (alg : Alg) (k bc : Nat), k < alg.blockSize →
    (k < alg.blockSize - alg.lengthSize →
      padZeros alg k ≤ alg.blockSize - alg.lengthSize - 1 ∧ (pad alg k bc).length = alg.blockSize - k) ∧
    (alg.blockSize - alg.lengthSize ≤ k →
      alg.blockSize - alg.lengthSize ≤ padZeros alg k ∧ padZeros alg k ≤ alg.blockSize - 1 ∧
        (pad alg k bc).length = 2 * alg.blockSize - k)

/-- R180 and R183: the padding is 0x80, then zero bytes, then the bit count as a big-endian number of `L` bytes at the very end. -/
def Obligations.PaddingEndsInTheBitCount : Prop :=
  ∀ (alg : Alg) (k : Nat) (bc : BitVec alg.counterWidth), k < alg.blockSize →
    (pad alg k bc.toNat)[0]? = some 0x80 ∧
    (∀ i, 1 ≤ i → i + alg.lengthSize < (pad alg k bc.toNat).length → (pad alg k bc.toNat)[i]? = some 0) ∧
    ((pad alg k bc.toNat).drop ((pad alg k bc.toNat).length - alg.lengthSize)).foldl (fun x b => 256 * x + b.toNat) 0 =
      bc.toNat

/-- R186: finalization compresses once where the padding fits and twice otherwise, and the digest is the big-endian state words
after that (R54, R185). -/
def Obligations.FinalizeCompressesOnceOrTwice : Prop :=
  ∀ (alg : Alg) (c : Context alg),
    c.finalize = digestBytes (compressBlocks alg (if c.bufLen.val < alg.blockSize - alg.lengthSize then 1 else 2) c.H
      (c.pending ++ pad alg c.bufLen c.bitCount.toNat)) ∧
    ∀ m : List Byte,
      ((Context.init alg).append m).finalize = digestBytes (compressBlocks alg
        (m.length / alg.blockSize + if m.length % alg.blockSize < alg.blockSize - alg.lengthSize then 1 else 2)
        (initialState alg)
        (m ++ pad alg (m.length % alg.blockSize) (BitVec.ofNat alg.counterWidth (8 * m.length)).toNat))

/-! ## Properties of the hasher (R147 to R150) -/

/-- R147: a command changes at most the one slot its ALG and CTX name, and none at all if it completes with NullContext. -/
def Obligations.CommandChangesAtMostItsSlot : Prop :=
  ∀ (i : Instr) (s t : State), exec i s = .next t →
    (∀ alg, t.nCtx alg = s.nCtx alg) ∧
    (∀ alg j, Instr.namedSlot i ≠ some (alg, j) → (t.slots alg)[j]? = (s.slots alg)[j]?) ∧
    (t.err = StatusCode.nullContext.code → SameSlots s t)

/-- R148: what a command does to STATUS.ERR, EQ, buffer memory and its slot depends only on its operands, that slot, buffer memory and
the parameters: not on any other slot, the scratch contexts, earlier status, the host's reads or the commands before it. Only where
the host raced it do the raced addresses (log entry 4) and the command's free values (log entry 3) matter too. The accesses are the
model's own list (log entry 5). -/
def Obligations.CommandDependsOnlyOnItsInputs : Prop :=
  ∀ (i : Instr) (s s' t t' : State), exec i s = .next t → exec i s' = .next t' →
    s.current = s'.current → s.mem = s'.mem → s.memSize = s'.memSize → s.raced = s'.raced →
    (s.raced ≠ [] → s.draws = s'.draws) →
    (∀ alg, s.nCtx alg = s'.nCtx alg) →
    (∀ alg j, Instr.namedSlot i = some (alg, j) → (s.slots alg)[j]? = (s'.slots alg)[j]?) →
    t.err = t'.err ∧ t.mem = t'.mem ∧ t.accesses = t'.accesses ∧ (s.eq = s'.eq → t.eq = t'.eq) ∧
      ∀ alg j, Instr.namedSlot i = some (alg, j) → (t.slots alg)[j]? = (t'.slots alg)[j]?

/-- R149: "`OneShot(m) == Final(Update(Init(), m))`", each command stored to CMD in turn, on any valid slot. -/
def Obligations.OneshotIsInitUpdateFinal : Prop :=
  ∀ (alg : Alg) (ctx : Nat) (s : State), ctx < s.nCtx alg → s.inRange s.argA.toNat s.argLen.toNat = true →
    counterFits alg 0 s.argLen.toNat = true → s.inRange s.argB.toNat alg.digestSize = true →
    ∃ t s1 s2 s3, exec (.oneshot alg true true) (s.accept (encode (.oneshot alg true true))) = .next t ∧
      exec (.init alg ctx true) (s.accept (encode (.init alg ctx true))) = .next s1 ∧
      exec (.update alg ctx true true) (s1.accept (encode (.update alg ctx true true))) = .next s2 ∧
      exec (.final alg ctx true true) (s2.accept (encode (.final alg ctx true true))) = .next s3 ∧
      Ended t .ok ∧ Ended s3 .ok ∧ (∀ a, t.mem.read a = s3.mem.read a)

/-- R150 on contexts: any split of a stream into chunks, empty ones included, gives the digest of the whole. -/
def Obligations.ChunkingDoesNotChangeTheDigest : Prop :=
  ∀ (alg : Alg) (chunks : List (List Byte)),
    (chunks.foldl Context.append (Context.init alg)).finalize = ((Context.init alg).append chunks.flatten).finalize

/-- R150 on the machine: UPDATE of `n₁` bytes and then of the `n₂` bytes behind them leaves the slot, and its digest, as one
UPDATE of all of them does. -/
def Obligations.TwoUpdatesAreOneUpdate : Prop :=
  ∀ (alg : Alg) (ctx : Nat) (c : Context alg) (s : State) (A n₁ n₂ : DWord), (s.slots alg)[ctx]? = some c → c.live = true →
    s.memSize ≤ 2 ^ 64 → n₁.toNat + n₂.toNat < 2 ^ 64 → s.inRange A.toNat (n₁.toNat + n₂.toNat) = true →
    counterFits alg c.bitCount.toNat (n₁.toNat + n₂.toNat) = true →
    ∃ t₁ t₂ t,
      exec (.update alg ctx true true) ((s.withOperands A n₁).accept (encode (.update alg ctx true true))) = .next t₁ ∧
      exec (.update alg ctx true true) ((t₁.withOperands (A + n₁) n₂).accept (encode (.update alg ctx true true))) = .next t₂ ∧
      exec (.update alg ctx true true) ((s.withOperands A (n₁ + n₂)).accept (encode (.update alg ctx true true))) = .next t ∧
      Ended t₂ .ok ∧ Ended t .ok ∧ SameMemory t t₂ ∧ OnlySlot alg ctx t t₂ ∧
      ∃ d d₂, (t.slots alg)[ctx]? = some d ∧ (t₂.slots alg)[ctx]? = some d₂ ∧ d₂.H = d.H ∧ d₂.bitCount = d.bitCount ∧
        d₂.pending = d.pending ∧ d₂.life = d.life ∧ d₂.finalize = d.finalize

/-- R37: a command takes a slot along an edge of the lifecycle or leaves it where it is. INIT alone makes a slot READY, UPDATE alone
makes one ACCUM, and none makes one UNINIT. -/
def Obligations.CommandsFollowTheLifecycle : Prop :=
  ∀ (i : Instr) (s t : State) (alg : Alg) (j : Nat) (c c' : Context alg), exec i s = .next t →
    (s.slots alg)[j]? = some c → (t.slots alg)[j]? = some c' →
    LifeEdge c.life c'.life ∧
    (c'.life = .ready → c.life = .ready ∨ ∃ ctx pc, i = Instr.init alg ctx pc) ∧
    (c'.life = .accum → c.life = .accum ∨ ∃ ctx pa pc, i = Instr.update alg ctx pa pc) ∧
    (c'.life = .uninit → c.life = .uninit)

/-! ## The register window and the host (spec/10_state.md, spec/60_exceptions.md) -/

/-- R22: a CMD store while BUSY = 0 stores the value, latches the operands and makes the command pending, with
no byte raced yet (log entry 4); nothing else changes. -/
def Obligations.CmdStoreStartsACommand : Prop :=
  ∀ (s : State) (v : Word) (rest : List Turn), s.schedule = .host (.storeReg .word s.regBase v) :: rest → s.pend = none →
    ∃ t, step s = .next t ∧ t.cmd = v ∧ t.pend = some { word := v, A := s.argA, B := s.argB, LEN := s.argLen } ∧ t.busy = true ∧ t.raced = [] ∧
      t.argA = s.argA ∧ t.argB = s.argB ∧ t.argLen = s.argLen ∧ t.err = s.err ∧ SameFaultRecord s t ∧ t.eq = s.eq ∧
      SameSlots s t ∧ SameMemory s t ∧ SameHidden s t ∧ t.memSize = s.memSize ∧ t.regBase = s.regBase ∧ t.schedule = rest

/-- R27 to R29: a store to an ARG or LEN register while BUSY = 0 stores the value, which a load then returns; every other register
of the window reads as before. R22 to R30, R61 and R256: a load of any register returns it, and changes nothing else, BUSY or not. -/
def Obligations.ArgumentStoreReadsBack : Prop :=
  (∀ (s : State) (off : Nat) (r : RegName) (v : Word) (rest : List Turn), regAt off = some r →
    r ∉ [RegName.cmd, .status, .result] → s.schedule = .host (.storeReg .word (s.regBase + off) v) :: rest → s.pend = none →
    ∃ t, step s = .next t ∧ t.windowRead .word off = v ∧
      (∀ off' r', regAt off' = some r' → r' ≠ r → t.windowRead .word off' = s.windowRead .word off') ∧
      t.pend = none ∧ SameSlots s t ∧ SameMemory s t ∧ SameHidden s t ∧ t.schedule = rest) ∧
  ∀ (s : State) (off : Nat) (v : Word) (rest : List Turn), s.schedule = .host (.loadReg .word (s.regBase + off)) :: rest →
    (off, v) ∈ [(0x00, s.cmd), (0x04, s.statusWord), (0x08, s.argALo), (0x0C, s.argAHi), (0x10, s.argBLo), (0x14, s.argBHi),
      (0x18, s.lenLo), (0x1C, s.lenHi), (0x20, s.resultWord)] →
    step s = .next { s with hostRead := .reg v, schedule := rest }

/-- R224: a store to CMD, ARG_* or LEN_* while BUSY = 1 is discarded and recorded as a BusyWrite fault; ERR, BUSY and the pending
command are not changed. A store to a reserved offset is ignored without a fault. -/
def Obligations.StoreWhileBusyIsABusyWrite : Prop :=
  ∀ (s : State) (p : Latch) (off : Nat) (v : Word) (rest : List Turn), s.pend = some p → off < 0x100 → off % 4 = 0 →
    s.schedule = .host (.storeReg .word (s.regBase + off) v) :: rest →
    ∃ t, step s = .next t ∧
      (off ∈ [0x00, 0x08, 0x0C, 0x10, 0x14, 0x18, 0x1C] → FaultRecorded s t .busyWrite) ∧
      (0x24 ≤ off → SameFaultRecord s t) ∧
      SameRegisters s t ∧ t.err = s.err ∧ t.eq = s.eq ∧ t.pend = s.pend ∧ SameSlots s t ∧ SameMemory s t ∧ SameHidden s t ∧
      t.schedule = rest

/-- R21 and R31: a store of another width, at an offset that is not a multiple of 4, or at a reserved offset changes nothing, even
while BUSY = 1; a load of that kind returns 0 and changes nothing else. -/
def Obligations.UndefinedWindowAccessesAreIgnored : Prop :=
  ∀ (s : State) (width : AccessWidth) (off : Nat) (v : Word) (rest : List Turn), off < 0x100 →
    width ≠ .word ∨ off % 4 ≠ 0 ∨ 0x24 ≤ off →
    (s.schedule = .host (.storeReg width (s.regBase + off) v) :: rest → step s = .next { s with schedule := rest }) ∧
    (s.schedule = .host (.loadReg width (s.regBase + off)) :: rest →
      step s = .next { s with hostRead := .reg 0, schedule := rest })

/-- R23 to R26 and R30: what each bit of STATUS and of RESULT reads; the reserved bits read 0. -/
def Obligations.StatusAndResultLayout : Prop :=
  ∀ s : State,
    (∀ k < 4, s.statusWord.getLsbD k = s.err.getLsbD k) ∧ s.statusWord.getLsbD 8 = s.fault ∧
    (∀ k < 4, s.statusWord.getLsbD (12 + k) = s.fcause.getLsbD k) ∧ s.statusWord.getLsbD 31 = s.pend.isSome ∧
    (∀ k, (4 ≤ k ∧ k ≤ 7 ∨ 9 ≤ k ∧ k ≤ 11 ∨ 16 ≤ k ∧ k ≤ 30) → s.statusWord.getLsbD k = false) ∧
    s.resultWord.getLsbD 0 = s.eq ∧ ∀ k, 1 ≤ k → s.resultWord.getLsbD k = false

/-- R24: once FAULT is 1 only reset clears it: no command and no store does. Any fault sets it. -/
def Obligations.FaultStaysSetUntilReset : Prop :=
  (∀ (s t : State), step s = .next t → (∀ rest, s.schedule ≠ .reset :: rest) → s.fault = true → t.fault = true) ∧
  (∀ (i : Instr) (s t : State), exec i s = .next t → 6 ≤ t.err.toNat → t.fault = true) ∧
  (∀ s : State, s.applyReset.fault = false) ∧ ∀ p : Params, (State.resetWith p).fault = false

/-- R25: FCAUSE holds the code of the first fault since reset, 6, 7, 8 or 9; later faults do not change it; it reads 0 while
FAULT = 0, and after reset. -/
def Obligations.FcauseKeepsTheFirstFault : Prop :=
  ∀ (s t : State), s.Inv → step s = .next t →
    ((∀ rest, s.schedule ≠ .reset :: rest) → s.fault = true → t.fcause = s.fcause) ∧
    (s.fault = false → t.fault = true →
      (t.pend = none ∧ t.fcause = t.err ∧ (t.fcause = 6 ∨ t.fcause = 7 ∨ t.fcause = 8)) ∨
      (t.pend = s.pend ∧ t.pend ≠ none ∧ t.fcause = 9)) ∧
    (t.fault = false → t.fcause = 0)

/-- R225: a run whose FAULT is 0 at its end, with no reset in its schedule, had FAULT = 0 at its start. -/
def Obligations.CleanRunNeverFaulted : Prop :=
  ∀ (n : Nat) (s t : State), CleanRun n s t → .reset ∉ s.schedule → s.fault = false

/-- R38: what a host load returns does not depend on any slot, scratch context or datapath, as long as the byte is not one a pending
command is about to write. -/
def Obligations.HostLoadsDoNotSeeTheSlots : Prop :=
  ∀ (s : State) (x : List (Context .sha256)) (y : List (Context .sha512)) (sx : Context .sha256) (sy : Context .sha512)
    (dx : Datapath .sha256) (dy : Datapath .sha512) (act : HostAction) (t t' : State),
    (∀ a, act = .loadByte a → s.inPendingOutput a = false) →
    hostTurn act s = .next t →
    hostTurn act { s with slots256 := x, slots512 := y, scratch256 := sx, scratch512 := sy, datapath256 := dx, datapath512 := dy } =
      .next t' →
    t.hostRead = t'.hostRead ∧ t.mem = t'.mem ∧ t.statusWord = t'.statusWord ∧ t.resultWord = t'.resultWord

/-- R85: an assembler line, run from an idle state, stores its operands and its command word, and its polling ends after finitely
many steps with the command executed and STATUS read back. How a poll gives the core its turn is log entry 13. -/
def Obligations.AssemblerLineRunsItsCommand : Prop :=
  ∀ (line : AsmLine) (s : State), s.pend = none → s.schedule = line.expand s.regBase →
    ∃ (n : Nat) (w : Word) (u : State),
      exec line.instr { (line.loaded s).accept (encode line.instr) with hostRead := .reg w, schedule := [.host .poll] } = .next u ∧
      Run n s { u with hostRead := .reg u.statusWord, schedule := [] }

/-! ## Memory, races and reset (spec/20_memory.md, spec/70_reset_and_hazards.md) -/

/-- R257: of a raced input range, every byte the host did not touch is the byte of buffer memory, and the command's result is the
rules' result on one value for each byte. That a raced byte which both ranges of a CTCMP hold is one value for both is log entry 15
(DEDUCED); that a CTCMP of a range with itself gives EQ = 1, raced or not, is R204. UPDATE and CTCMP; ONESHOT and TOHEX are in the
next statement. -/
def Obligations.RacedInputIsTakenAsSomeBytes : Prop :=
  (∀ (alg : Alg) (ctx : Nat) (c : Context alg) (s : State), (s.slots alg)[ctx]? = some c → c.live = true → 0 < s.opLen →
    c.bitCount.toNat + 8 * s.opLen ≤ 2 ^ alg.counterWidth - 1 → s.opA + s.opLen ≤ s.memSize →
    ∃ t take d, exec (.update alg ctx true true) s = .next t ∧ MayTake s take ∧ (t.slots alg)[ctx]? = some d ∧
      d.H = (c.absorbByBlocks (takenAt take s.opA s.opLen)).H ∧
      d.pending = (c.absorbByBlocks (takenAt take s.opA s.opLen)).pending ∧
      d.bitCount.toNat = c.bitCount.toNat + 8 * s.opLen ∧ d.life = .accum ∧ Ended t .ok ∧ SameMemory s t) ∧
  ∀ (alg : Alg) (s : State), s.opA + alg.digestSize ≤ s.memSize → s.opB + alg.digestSize ≤ s.memSize →
    ∃ t take, exec (.ctcmp alg true true) s = .next t ∧ MayTake s take ∧
      (t.eq = true ↔ ∀ k < alg.digestSize, take (s.opA + k) = take (s.opB + k)) ∧ (s.opA = s.opB → t.eq = true) ∧
      Ended t .ok ∧ SameMemory s t

/-- R258: of a raced output range, each byte ends as the command's value or, only where the host wrote it, as the host's; outside
the range nothing changes. ONESHOT's and TOHEX's inputs may be raced too (R257). -/
def Obligations.RacedOutputEndsAsEitherValue : Prop :=
  (∀ (alg : Alg) (ctx : Nat) (c : Context alg) (s : State), (s.slots alg)[ctx]? = some c → c.live = true →
    s.opB + alg.digestSize ≤ s.memSize →
    ∃ t, exec (.final alg ctx true true) s = .next t ∧ EndsAs s t s.opB c.finalize ∧ OnlyBytes s.opB alg.digestSize s t ∧
      Ended t .ok) ∧
  (∀ (alg : Alg) (s : State), 8 * s.opLen ≤ 2 ^ alg.counterWidth - 1 → s.opA + s.opLen ≤ s.memSize →
    s.opB + alg.digestSize ≤ s.memSize →
    ∃ t take, exec (.oneshot alg true true) s = .next t ∧ MayTake s take ∧
      EndsAs s t s.opB ((Context.init alg).append (takenAt take s.opA s.opLen)).finalize ∧
      OnlyBytes s.opB alg.digestSize s t ∧ Ended t .ok) ∧
  ∀ (alg : Alg) (s : State), s.opA + alg.digestSize ≤ s.memSize → s.opB + 2 * alg.digestSize ≤ s.memSize →
    ∃ t take, exec (.tohex alg true true) s = .next t ∧ MayTake s take ∧
      EndsAs s t s.opB (toHex (takenAt take s.opA alg.digestSize)) ∧ OnlyBytes s.opB (2 * alg.digestSize) s t ∧ Ended t .ok

/-- R258: a host load changes no byte and returns, outside the pending command's output range, the byte of buffer memory. Inside it,
it returns the byte as it stands or the byte as it is right after the command is over, whatever the host does meanwhile, to that byte
too. That the byte before the command is the byte as it stands at the load, and that a reset ends the command too, is log entry 6. -/
def Obligations.RacedLoadReturnsOldOrFinalByte : Prop :=
  ∀ (s : State) (a : Nat) (rest : List Turn), s.schedule = .host (.loadByte a) :: rest → a < s.memSize →
    ∃ t, step s = .next t ∧ SameMemory s t ∧ t.pend = s.pend ∧ SameSlots s t ∧ SameRegisters s t ∧
      (s.inPendingOutput a = false → t.hostRead = .byte (s.mem.read a)) ∧
      ∀ u, s.inPendingOutput a = true → CommandOver t u →
        t.hostRead = .byte (s.mem.read a) ∨ t.hostRead = .byte (u.mem.read a)

/-- R250 and R252: reset zeroes every register, empties the latch, zeroes every slot, scratch context and datapath, and leaves
buffer memory alone when no command was pending. The parameters stay. That a scratch context's lifecycle state is then UNINIT, as R250
says and R41 with R45 does not, is log entry 9. -/
def Obligations.ResetClearsAllButMemory : Prop :=
  ∀ (s : State) (rest : List Turn), s.schedule = .reset :: rest →
    ∃ t, step s = .next t ∧
      (∀ r : RegName, t.readReg r = 0) ∧ t.pend = none ∧
      (∀ alg, t.nCtx alg = s.nCtx alg ∧ ∀ c ∈ t.slots alg, c = Context.zero alg) ∧
      (∀ alg, t.scratch alg = Context.zero alg ∧ t.datapath alg = Datapath.zero alg) ∧
      t.memSize = s.memSize ∧ t.regBase = s.regBase ∧ t.schedule = rest ∧ (s.pend = none → t.mem = s.mem)

/-- R253: after a reset that abandoned a pending command, every byte outside that command's output range is as before. What the
range holds is a free value: nothing is said of it. -/
def Obligations.AbandonedCommandTouchesOnlyItsOutputRange : Prop :=
  ∀ (s : State) (rest : List Turn) (a : Nat), s.schedule = .reset :: rest →
    (∀ addr n, s.pendingOutput = some (addr, n) → ¬(addr ≤ a ∧ a < addr + n)) →
    ∃ t, step s = .next t ∧ t.mem.read a = s.mem.read a

/-- R51 and R61: a byte the host stores while BUSY = 0 is the byte it then loads, and no other byte changes. R257 and R258: one it stores
while BUSY = 1 is stored too, and counts as raced from then on (log entry 4). An address outside buffer memory does not exist, and
the model stops there by name (log entry 16, DESIGN CHOICE). -/
def Obligations.HostByteStoreThenLoad : Prop :=
  (∀ (s : State) (a : Nat) (b : Byte) (rest : List Turn), s.schedule = .host (.storeByte a b) :: .host (.loadByte a) :: rest →
    s.pend = none → a < s.memSize → ∃ t u, step s = .next t ∧ OnlyBytes a 1 s t ∧ t.raced = s.raced ∧ step t = .next u ∧
      u.hostRead = .byte b ∧ u.mem = t.mem ∧ u.schedule = rest) ∧
  ∀ (s : State) (a : Nat) (b : Byte) (rest : List Turn), s.schedule = .host (.storeByte a b) :: rest →
    (s.pend ≠ none → a < s.memSize → ∃ t, step s = .next t ∧ t.mem.read a = b ∧ OnlyBytes a 1 s t ∧
      (∀ a', a' ∈ t.raced ↔ a' = a ∨ a' ∈ s.raced) ∧ t.pend = s.pend ∧ t.err = s.err ∧ SameFaultRecord s t ∧ SameRegisters s t ∧
      SameSlots s t ∧ t.schedule = rest) ∧
    (s.memSize ≤ a → step s = .fault .hostByteOutsideMemory)

/-! ## The invariant -/

/-- The invariant holds right after reset, for every choice of the parameters in their ranges. -/
def Obligations.ResetMeetsTheInvariant : Prop :=
  ∀ p : Params, p.wf → (State.resetWith p).Inv

/-- Every step keeps the invariant: memory canonical and inside its bounds, the latch equal to the registers it was filled from,
FCAUSE consistent with FAULT, no reserved status code, datapaths and scratch contexts clear, and R36 on every slot. -/
def Obligations.StepKeepsTheInvariant : Prop :=
  ∀ s t : State, s.Inv → step s = .next t → t.Inv
end

