-- ==== Sys2Proof/Laws/Hasher.lean ====
section
/-! SUPPORT. The laws of the incremental hasher: what one absorbed byte does (spec/41_hasher.md R141), what absorbing never
changes, how `bufLen` moves, and the sizes of padding and digest (spec/42_padding.md R182, spec/20_memory.md R54). -/

namespace Sys2Proof.Machine

variable {alg : Alg}

/-! ## One byte -/

@[simp] theorem Context.pushByte_bitCount (c : Context alg) (x : Byte) : (c.pushByte x).bitCount = c.bitCount := by
  unfold Context.pushByte; split <;> rfl

@[simp] theorem Context.pushByte_life (c : Context alg) (x : Byte) : (c.pushByte x).life = c.life := by
  unfold Context.pushByte; split <;> rfl

theorem Context.pushByte_bufLen (c : Context alg) (x : Byte) :
    (c.pushByte x).bufLen.val = (c.bufLen.val + 1) % alg.blockSize := by
  have := c.bufLen.isLt
  unfold Context.pushByte
  split
  · rename_i h; simp [Nat.mod_eq_of_lt h]
  · rename_i h; simp [show c.bufLen.val + 1 = alg.blockSize by omega]

/-- The buffered bytes, with the next one written behind them. -/
theorem take_set_succ {n : Nat} (v : Vector Byte n) (i : Nat) (h : i < n) (x : Byte) :
    (v.set i x h).toList.take (i + 1) = v.toList.take i ++ [x] := by
  rw [Vector.toList_set, List.take_succ_eq_append_getElem (by simpa using h)]
  simp [List.take_set_of_le]

/-- A byte that does not fill the buffer is only buffered. -/
theorem Context.pushByte_short (c : Context alg) (x : Byte) (h : c.bufLen.val + 1 < alg.blockSize) :
    (c.pushByte x).H = c.H ∧ (c.pushByte x).pending = c.pending ++ [x] := by
  unfold Context.pushByte
  rw [dif_pos h]
  exact ⟨rfl, take_set_succ c.buf c.bufLen c.bufLen.isLt x⟩

/-- A byte that fills the buffer compresses it, and the buffer is empty. -/
theorem Context.pushByte_full (c : Context alg) (x : Byte) (h : c.bufLen.val + 1 = alg.blockSize) :
    (c.pushByte x).H = compress alg c.H (c.pending ++ [x]) ∧ (c.pushByte x).pending = [] := by
  unfold Context.pushByte
  rw [dif_neg (by omega)]
  refine ⟨?_, by simp [Context.pending]⟩
  show compress alg c.H (c.buf.set c.bufLen x).toList = _
  congr 1
  have := take_set_succ c.buf c.bufLen c.bufLen.isLt x
  rw [← Context.pending] at this
  rw [← this, List.take_of_length_le (by simp; omega)]

@[simp] theorem Context.pending_length (c : Context alg) : c.pending.length = c.bufLen.val := by
  simp [Context.pending, Nat.le_of_lt c.bufLen.isLt]

/-! ## A sequence of bytes -/

@[simp] theorem Context.absorb_nil (c : Context alg) : c.absorb [] = c := rfl

@[simp] theorem Context.absorb_cons (c : Context alg) (x : Byte) (d : List Byte) :
    c.absorb (x :: d) = (c.pushByte x).absorb d := rfl

/-- Absorbing in two pieces is absorbing the whole. -/
theorem Context.absorb_append (c : Context alg) (d e : List Byte) : c.absorb (d ++ e) = (c.absorb d).absorb e := by
  simp [Context.absorb, List.foldl_append]

@[simp] theorem Context.absorb_bitCount (c : Context alg) (d : List Byte) : (c.absorb d).bitCount = c.bitCount := by
  induction d generalizing c with
  | nil => rfl
  | cons x d ih => simp [ih]

@[simp] theorem Context.absorb_life (c : Context alg) (d : List Byte) : (c.absorb d).life = c.life := by
  induction d generalizing c with
  | nil => rfl
  | cons x d ih => simp [ih]

theorem Context.absorb_bufLen (c : Context alg) (d : List Byte) :
    (c.absorb d).bufLen.val = (c.bufLen.val + d.length) % alg.blockSize := by
  induction d generalizing c with
  | nil => simp [Nat.mod_eq_of_lt c.bufLen.isLt]
  | cons x d ih =>
    rw [Context.absorb_cons, ih, Context.pushByte_bufLen, Nat.mod_add_mod, List.length_cons]
    congr 1
    omega

/-- Bytes that do not fill the buffer are only buffered. -/
theorem Context.absorb_short (c : Context alg) (d : List Byte) (h : c.bufLen.val + d.length < alg.blockSize) :
    (c.absorb d).H = c.H ∧ (c.absorb d).pending = c.pending ++ d := by
  induction d generalizing c with
  | nil => simp
  | cons x d ih =>
    simp only [List.length_cons] at h
    obtain ⟨h1, h2⟩ := c.pushByte_short x (by omega)
    have := c.pushByte_bufLen x
    rw [Nat.mod_eq_of_lt (by omega)] at this
    obtain ⟨h3, h4⟩ := ih (c.pushByte x) (by omega)
    exact ⟨h3.trans h1, by rw [Context.absorb_cons, h4, h2]; simp⟩

/-- Bytes that exactly fill the buffer compress it, and the buffer is empty. -/
theorem Context.absorb_fill (c : Context alg) (d : List Byte) (h : c.bufLen.val + d.length = alg.blockSize) :
    (c.absorb d).H = compress alg c.H (c.pending ++ d) ∧ (c.absorb d).pending = [] := by
  rcases List.eq_nil_or_concat d with rfl | ⟨d, x, rfl⟩
  · have := c.bufLen.isLt
    change c.bufLen.val + 0 = alg.blockSize at h
    omega
  · rw [List.concat_eq_append] at h ⊢
    simp only [List.length_append, List.length_singleton] at h
    obtain ⟨h1, h2⟩ := c.absorb_short d (by omega)
    have hb := c.absorb_bufLen d
    rw [Nat.mod_eq_of_lt (by omega)] at hb
    obtain ⟨h3, h4⟩ := (c.absorb d).pushByte_full x (by omega)
    rw [Context.absorb_append]
    exact ⟨by simp [h3, h1, h2], h4⟩

/-! ## UPDATE on a context -/

@[simp] theorem Context.append_life (c : Context alg) (d : List Byte) : (c.append d).life = .accum := rfl

@[simp] theorem Context.append_bitCount (c : Context alg) (d : List Byte) :
    (c.append d).bitCount = c.bitCount + BitVec.ofNat alg.counterWidth (8 * d.length) := by
  simp [Context.append]

theorem Context.append_bufLen (c : Context alg) (d : List Byte) :
    (c.append d).bufLen.val = (c.bufLen.val + d.length) % alg.blockSize := by
  simp [Context.append, Context.absorb_bufLen]

/-- The counter of a context after an UPDATE that `CounterFits` admits (R142, R144): it does not wrap. -/
theorem Context.append_bitCount_toNat (c : Context alg) (d : List Byte)
    (h : counterFits alg c.bitCount.toNat d.length = true) :
    (c.append d).bitCount.toNat = c.bitCount.toNat + 8 * d.length := by
  have : c.bitCount.toNat + 8 * d.length ≤ 2 ^ alg.counterWidth - 1 := by simpa [counterFits] using h
  have : 0 < 2 ^ alg.counterWidth := by positivity
  simp only [Context.append_bitCount, BitVec.toNat_add, BitVec.toNat_ofNat, Nat.add_mod_mod]
  exact Nat.mod_eq_of_lt (by omega)

/-! ## Sizes -/

@[simp] theorem bytesOfNat_length (n x : Nat) : (bytesOfNat n x).length = n := by simp [bytesOfNat]

@[simp] theorem digestBytes_length (H : Vector (BitVec alg.w) 8) : (digestBytes H).length = alg.digestSize := by
  cases alg <;> simp [digestBytes, List.length_flatMap] <;> rfl

@[simp] theorem Context.finalize_length (c : Context alg) : c.finalize.length = alg.digestSize := by
  simp [Context.finalize]

/-- R182: with the buffered bytes, the padding makes one block or two. -/
theorem pad_length (alg : Alg) {k : Nat} (h : k < alg.blockSize) (bc : Nat) :
    k + (pad alg k bc).length =
      if k < alg.blockSize - alg.lengthSize then alg.blockSize else 2 * alg.blockSize := by
  simp only [pad, padZeros, List.length_cons, List.length_append, List.length_replicate, bytesOfNat_length]
  cases alg <;> simp only [Alg.blockSize, Alg.lengthSize] at * <;> split <;> omega

end Sys2Proof.Machine
end

