-- ==== Sys2Proof/Laws/Memory.lean ====
section
/-! SUPPORT. The laws of buffer memory (spec/20_memory.md R51): read after write, what a write leaves alone, and that every
operation keeps the canonical form. -/

namespace Sys2Proof.Machine

/-! ## One byte -/

@[simp] theorem Memory.lookup_write_same (m : Memory) (a : Nat) (b : Byte) : (m.write a b).lookup a = some b := by
  induction m with
  | nil => simp [Memory.write, Memory.lookup]
  | cons x m ih =>
    obtain ⟨k, v⟩ := x
    simp only [Memory.write]
    split
    · simp [Memory.lookup]
    · split
      · simp [Memory.lookup]
      · simpa [Memory.lookup, show k ≠ a by omega] using ih

theorem Memory.lookup_write_other (m : Memory) {a a' : Nat} (b : Byte) (h : a' ≠ a) :
    (m.write a b).lookup a' = m.lookup a' := by
  induction m with
  | nil => simp [Memory.write, Memory.lookup, Ne.symm h]
  | cons x m ih =>
    obtain ⟨k, v⟩ := x
    simp only [Memory.write]
    split
    · simp [Memory.lookup, Ne.symm h]
    · split
      · subst_vars; simp [Memory.lookup, Ne.symm h]
      · simp [Memory.lookup, ih]

/-- A byte written is the byte read. -/
@[simp] theorem Memory.read_write_same (m : Memory) (a : Nat) (b : Byte) : (m.write a b).read a = b := by
  simp [Memory.read]

/-- A write leaves every other byte alone. -/
theorem Memory.read_write_other (m : Memory) {a a' : Nat} (b : Byte) (h : a' ≠ a) :
    (m.write a b).read a' = m.read a' := by
  simp [Memory.read, m.lookup_write_other b h]

/-- Every listed address after a write was listed before, or is the address written. -/
theorem Memory.mem_write {m : Memory} {a : Nat} {b : Byte} {x : Host.Cell} (h : x ∈ m.write a b) : x = (a, b) ∨ x ∈ m := by
  induction m with
  | nil => simpa [Memory.write] using h
  | cons y m ih =>
    obtain ⟨k, v⟩ := y
    simp only [Memory.write] at h
    split at h
    · simpa using h
    · split at h
      · rcases List.mem_cons.1 h with h | h
        · exact .inl h
        · exact .inr (List.mem_cons_of_mem _ h)
      · rcases List.mem_cons.1 h with h | h
        · exact .inr (h ▸ List.mem_cons_self)
        · exact (ih h).imp_right (List.mem_cons_of_mem _)

/-- A write keeps the canonical form. -/
theorem Memory.write_wf {m : Memory} (h : m.wf) (a : Nat) (b : Byte) : (m.write a b).wf := by
  induction m with
  | nil => simp [Memory.write]
  | cons x m ih =>
    obtain ⟨k, v⟩ := x
    obtain ⟨hk, hm⟩ := List.pairwise_cons.1 h
    simp only [Memory.write]
    split
    · refine List.pairwise_cons.2 ⟨fun y hy => ?_, h⟩
      rcases List.mem_cons.1 hy with rfl | hy
      · assumption
      · exact lt_trans ‹_› (hk y hy)
    · split
      · subst_vars; exact List.pairwise_cons.2 ⟨hk, hm⟩
      · refine List.pairwise_cons.2 ⟨fun y hy => ?_, ih hm⟩
        rcases Memory.mem_write hy with rfl | hy
        · show k < a
          omega
        · exact hk y hy

/-! ## A sequence of bytes -/

/-- A command's write with nothing raced is a plain write. -/
@[simp] theorem Memory.writeRaced_nil (draw : Nat) (m : Memory) (addr : Nat) (bs : List Byte) :
    Memory.writeRaced [] draw m addr bs = m.writeBytes addr bs := by
  induction bs generalizing m addr with
  | nil => rfl
  | cons b bs ih => simp [Memory.writeRaced, Memory.writeBytes, ih]

/-- A command's write leaves every byte outside its range alone, raced or not. -/
theorem Memory.read_writeRaced_outside (raced : List Nat) (draw : Nat) (bs : List Byte) (m : Memory) (addr : Nat) {a : Nat}
    (h : ¬(addr ≤ a ∧ a < addr + bs.length)) : (Memory.writeRaced raced draw m addr bs).read a = m.read a := by
  induction bs generalizing m addr with
  | nil => rfl
  | cons b bs ih =>
    simp only [List.length_cons] at h
    rw [Memory.writeRaced, ih _ _ (by omega)]
    split
    · rfl
    · exact m.read_write_other b (by omega)

/-- A byte a command wrote ends as the command's, or, only where the host raced it, as it stood. -/
theorem Memory.read_writeRaced_inside (raced : List Nat) (draw : Nat) (bs : List Byte) (m : Memory) (addr k : Nat)
    (h : k < bs.length) :
    (Memory.writeRaced raced draw m addr bs).read (addr + k) = bs[k] ∨
      addr + k ∈ raced ∧ (Memory.writeRaced raced draw m addr bs).read (addr + k) = m.read (addr + k) := by
  induction bs generalizing m addr k with
  | nil => simp at h
  | cons b bs ih =>
    rw [Memory.writeRaced]
    cases k with
    | zero =>
      rw [Memory.read_writeRaced_outside _ _ _ _ _ (by omega)]
      split
      · exact .inr ⟨by simpa using (And.left ‹_›), rfl⟩
      · exact .inl (by simp)
    | succ k =>
      have := ih (if addr ∈ raced ∧ Config.freeBit draw addr then m else m.write addr b) (addr + 1) k (by simpa using h)
      rw [show addr + (k + 1) = addr + 1 + k by omega]
      refine this.imp (by simp) fun ⟨h1, h2⟩ => ⟨h1, h2.trans ?_⟩
      split
      · rfl
      · exact m.read_write_other b (by omega)

/-- The bytes a plain write leaves. -/
theorem Memory.read_writeBytes_inside (bs : List Byte) (m : Memory) (addr k : Nat) (h : k < bs.length) :
    (m.writeBytes addr bs).read (addr + k) = bs[k] := by
  simpa using m.read_writeRaced_inside [] 0 bs addr k h

/-- What a plain write leaves alone. -/
theorem Memory.read_writeBytes_outside (bs : List Byte) (m : Memory) (addr : Nat) {a : Nat}
    (h : ¬(addr ≤ a ∧ a < addr + bs.length)) : (m.writeBytes addr bs).read a = m.read a := by
  simpa using Memory.read_writeRaced_outside [] 0 bs m addr h

/-- A command's write keeps the canonical form. -/
theorem Memory.writeRaced_wf (raced : List Nat) (draw : Nat) (bs : List Byte) {m : Memory} (h : m.wf) (addr : Nat) :
    (Memory.writeRaced raced draw m addr bs).wf := by
  induction bs generalizing m addr with
  | nil => exact h
  | cons b bs ih =>
    rw [Memory.writeRaced]
    refine ih ?_ _
    split
    · exact h
    · exact Memory.write_wf h addr b

/-- A plain write keeps the canonical form. -/
theorem Memory.writeBytes_wf (bs : List Byte) {m : Memory} (h : m.wf) (addr : Nat) : (m.writeBytes addr bs).wf := by
  simpa using Memory.writeRaced_wf [] 0 bs h addr

/-- A command's write lists no address outside its range that was not listed before. -/
theorem Memory.mem_writeRaced (raced : List Nat) (draw : Nat) (bs : List Byte) {m : Memory} {addr : Nat} {x : Host.Cell}
    (h : x ∈ Memory.writeRaced raced draw m addr bs) : x ∈ m ∨ addr ≤ x.1 ∧ x.1 < addr + bs.length := by
  induction bs generalizing m addr with
  | nil => exact .inl h
  | cons b bs ih =>
    rw [Memory.writeRaced] at h
    rcases ih h with h | h
    · split at h
      · exact .inl h
      · rcases Memory.mem_write h with rfl | h
        · exact .inr ⟨le_refl _, by simp⟩
        · exact .inl h
    · exact .inr ⟨by omega, by simp only [List.length_cons]; omega⟩

/-- A plain write lists no address outside its range that was not listed before. -/
theorem Memory.mem_writeBytes (bs : List Byte) {m : Memory} {addr : Nat} {x : Host.Cell} (h : x ∈ m.writeBytes addr bs) :
    x ∈ m ∨ addr ≤ x.1 ∧ x.1 < addr + bs.length :=
  Memory.mem_writeRaced [] 0 bs (by simpa using h)

/-- Canonical memories that list the same bytes are equal data. -/
theorem Memory.ext_of_lookup {m m' : Memory} (h : m.wf) (h' : m'.wf) (e : ∀ a, m.lookup a = m'.lookup a) : m = m' := by
  have above : ∀ {l : Memory} {k : Nat}, (∀ x ∈ l, k < x.1) → ∀ a ≤ k, l.lookup a = none := by
    intro l k
    induction l with
    | nil => intros; rfl
    | cons x l ih =>
      intro hl a ha
      have := hl x List.mem_cons_self
      simp only [Memory.lookup, show x.1 ≠ a by omega, if_false]
      exact ih (fun y hy => hl y (List.mem_cons_of_mem _ hy)) a ha
  induction m generalizing m' with
  | nil =>
    cases m' with
    | nil => rfl
    | cons x m' => simpa [Memory.lookup] using e x.1
  | cons x m ih =>
    obtain ⟨k, v⟩ := x
    obtain ⟨hk, hm⟩ := List.pairwise_cons.1 h
    cases m' with
    | nil => simpa [Memory.lookup] using e k
    | cons y m' =>
      obtain ⟨k', v'⟩ := y
      obtain ⟨hk', hm'⟩ := List.pairwise_cons.1 h'
      have e1 := e k
      have e2 := e k'
      simp only [Memory.lookup, if_true] at e1 e2
      have kk : k = k' := by
        rcases lt_trichotomy k k' with hlt | heq | hgt
        · rw [if_neg (by omega), above (k := k') (fun x hx => hk' x hx) k (by omega)] at e1
          simp at e1
        · exact heq
        · rw [if_neg (by omega), above (k := k) (fun x hx => hk x hx) k' (by omega)] at e2
          simp at e2
      subst kk
      simp only [if_true, Option.some.injEq] at e1
      subst e1
      refine congrArg _ (ih hm hm' fun a => ?_)
      by_cases ha : k = a
      · subst ha
        rw [above (k := k) (fun x hx => hk x hx) k (le_refl _), above (k := k) (fun x hx => hk' x hx) k (le_refl _)]
      · simpa [Memory.lookup, ha] using e a

/-- Right after reset nothing is listed, so the canonical form holds. -/
theorem State.reset_mem_wf : State.reset.mem.wf := List.Pairwise.nil

/-! ## A command's reads -/

/-- With nothing raced, a command reads the bytes of buffer memory. -/
theorem State.fetched_unraced {s : State} (h : s.raced = []) (addr n : Nat) :
    s.fetched addr n = (List.range n).map fun k => s.mem.read (addr + k) := by
  simp [State.fetched, State.inputByte, h]

@[simp] theorem State.fetched_length (s : State) (addr n : Nat) : (s.fetched addr n).length = n := by
  simp [State.fetched]

end Sys2Proof.Machine
end

