-- ==== Sys2Proof/Laws/State.lean ====
section
/-! SUPPORT. One lemma per field per update of the state, all `@[simp]`, so that no later proof unfolds a record update. -/

namespace Sys2Proof.Machine

variable (s : State)

/-! ## `begin` -/

@[simp] theorem State.begin_cmd : (s.begin).cmd = s.cmd := rfl
@[simp] theorem State.begin_argALo : (s.begin).argALo = s.argALo := rfl
@[simp] theorem State.begin_argAHi : (s.begin).argAHi = s.argAHi := rfl
@[simp] theorem State.begin_argBLo : (s.begin).argBLo = s.argBLo := rfl
@[simp] theorem State.begin_argBHi : (s.begin).argBHi = s.argBHi := rfl
@[simp] theorem State.begin_lenLo : (s.begin).lenLo = s.lenLo := rfl
@[simp] theorem State.begin_lenHi : (s.begin).lenHi = s.lenHi := rfl
@[simp] theorem State.begin_err : (s.begin).err = s.err := rfl
@[simp] theorem State.begin_fault : (s.begin).fault = s.fault := rfl
@[simp] theorem State.begin_fcause : (s.begin).fcause = s.fcause := rfl
@[simp] theorem State.begin_eq : (s.begin).eq = s.eq := rfl
@[simp] theorem State.begin_pend : (s.begin).pend = s.pend := rfl
@[simp] theorem State.begin_slots256 : (s.begin).slots256 = s.slots256 := rfl
@[simp] theorem State.begin_slots512 : (s.begin).slots512 = s.slots512 := rfl
@[simp] theorem State.begin_scratch256 : (s.begin).scratch256 = s.scratch256 := rfl
@[simp] theorem State.begin_scratch512 : (s.begin).scratch512 = s.scratch512 := rfl
@[simp] theorem State.begin_datapath256 : (s.begin).datapath256 = s.datapath256 := rfl
@[simp] theorem State.begin_datapath512 : (s.begin).datapath512 = s.datapath512 := rfl
@[simp] theorem State.begin_mem : (s.begin).mem = s.mem := rfl
@[simp] theorem State.begin_memSize : (s.begin).memSize = s.memSize := rfl
@[simp] theorem State.begin_regBase : (s.begin).regBase = s.regBase := rfl
@[simp] theorem State.begin_raced : (s.begin).raced = s.raced := rfl
@[simp] theorem State.begin_draws : (s.begin).draws = s.draws := rfl
@[simp] theorem State.begin_coins : (s.begin).coins = s.coins := rfl
@[simp] theorem State.begin_accesses : (s.begin).accesses = [] := rfl
@[simp] theorem State.begin_hostRead : (s.begin).hostRead = s.hostRead := rfl
@[simp] theorem State.begin_schedule : (s.begin).schedule = s.schedule := rfl
@[simp] theorem State.begin_slots (alg' : Alg) : (s.begin).slots alg' = s.slots alg' := by cases alg' <;> rfl
@[simp] theorem State.begin_scratch (alg' : Alg) : (s.begin).scratch alg' = s.scratch alg' := by cases alg' <;> rfl
@[simp] theorem State.begin_datapath (alg' : Alg) : (s.begin).datapath alg' = s.datapath alg' := by cases alg' <;> rfl

/-! ## `setEq` -/

@[simp] theorem State.setEq_cmd (v : Bool) : (s.setEq v).cmd = s.cmd := rfl
@[simp] theorem State.setEq_argALo (v : Bool) : (s.setEq v).argALo = s.argALo := rfl
@[simp] theorem State.setEq_argAHi (v : Bool) : (s.setEq v).argAHi = s.argAHi := rfl
@[simp] theorem State.setEq_argBLo (v : Bool) : (s.setEq v).argBLo = s.argBLo := rfl
@[simp] theorem State.setEq_argBHi (v : Bool) : (s.setEq v).argBHi = s.argBHi := rfl
@[simp] theorem State.setEq_lenLo (v : Bool) : (s.setEq v).lenLo = s.lenLo := rfl
@[simp] theorem State.setEq_lenHi (v : Bool) : (s.setEq v).lenHi = s.lenHi := rfl
@[simp] theorem State.setEq_err (v : Bool) : (s.setEq v).err = s.err := rfl
@[simp] theorem State.setEq_fault (v : Bool) : (s.setEq v).fault = s.fault := rfl
@[simp] theorem State.setEq_fcause (v : Bool) : (s.setEq v).fcause = s.fcause := rfl
@[simp] theorem State.setEq_eq (v : Bool) : (s.setEq v).eq = v := rfl
@[simp] theorem State.setEq_pend (v : Bool) : (s.setEq v).pend = s.pend := rfl
@[simp] theorem State.setEq_slots256 (v : Bool) : (s.setEq v).slots256 = s.slots256 := rfl
@[simp] theorem State.setEq_slots512 (v : Bool) : (s.setEq v).slots512 = s.slots512 := rfl
@[simp] theorem State.setEq_scratch256 (v : Bool) : (s.setEq v).scratch256 = s.scratch256 := rfl
@[simp] theorem State.setEq_scratch512 (v : Bool) : (s.setEq v).scratch512 = s.scratch512 := rfl
@[simp] theorem State.setEq_datapath256 (v : Bool) : (s.setEq v).datapath256 = s.datapath256 := rfl
@[simp] theorem State.setEq_datapath512 (v : Bool) : (s.setEq v).datapath512 = s.datapath512 := rfl
@[simp] theorem State.setEq_mem (v : Bool) : (s.setEq v).mem = s.mem := rfl
@[simp] theorem State.setEq_memSize (v : Bool) : (s.setEq v).memSize = s.memSize := rfl
@[simp] theorem State.setEq_regBase (v : Bool) : (s.setEq v).regBase = s.regBase := rfl
@[simp] theorem State.setEq_raced (v : Bool) : (s.setEq v).raced = s.raced := rfl
@[simp] theorem State.setEq_draws (v : Bool) : (s.setEq v).draws = s.draws := rfl
@[simp] theorem State.setEq_coins (v : Bool) : (s.setEq v).coins = s.coins := rfl
@[simp] theorem State.setEq_accesses (v : Bool) : (s.setEq v).accesses = s.accesses := rfl
@[simp] theorem State.setEq_hostRead (v : Bool) : (s.setEq v).hostRead = s.hostRead := rfl
@[simp] theorem State.setEq_schedule (v : Bool) : (s.setEq v).schedule = s.schedule := rfl
@[simp] theorem State.setEq_slots (v : Bool) (alg' : Alg) : (s.setEq v).slots alg' = s.slots alg' := by cases alg' <;> rfl
@[simp] theorem State.setEq_scratch (v : Bool) (alg' : Alg) : (s.setEq v).scratch alg' = s.scratch alg' := by cases alg' <;> rfl
@[simp] theorem State.setEq_datapath (v : Bool) (alg' : Alg) : (s.setEq v).datapath alg' = s.datapath alg' := by cases alg' <;> rfl

/-! ## `complete` -/

@[simp] theorem State.complete_cmd (c : StatusCode) : (s.complete c).cmd = s.cmd := rfl
@[simp] theorem State.complete_argALo (c : StatusCode) : (s.complete c).argALo = s.argALo := rfl
@[simp] theorem State.complete_argAHi (c : StatusCode) : (s.complete c).argAHi = s.argAHi := rfl
@[simp] theorem State.complete_argBLo (c : StatusCode) : (s.complete c).argBLo = s.argBLo := rfl
@[simp] theorem State.complete_argBHi (c : StatusCode) : (s.complete c).argBHi = s.argBHi := rfl
@[simp] theorem State.complete_lenLo (c : StatusCode) : (s.complete c).lenLo = s.lenLo := rfl
@[simp] theorem State.complete_lenHi (c : StatusCode) : (s.complete c).lenHi = s.lenHi := rfl
@[simp] theorem State.complete_err (c : StatusCode) : (s.complete c).err = c.code := rfl
@[simp] theorem State.complete_fault (c : StatusCode) : (s.complete c).fault = s.fault := rfl
@[simp] theorem State.complete_fcause (c : StatusCode) : (s.complete c).fcause = s.fcause := rfl
@[simp] theorem State.complete_eq (c : StatusCode) : (s.complete c).eq = s.eq := rfl
@[simp] theorem State.complete_pend (c : StatusCode) : (s.complete c).pend = none := rfl
@[simp] theorem State.complete_slots256 (c : StatusCode) : (s.complete c).slots256 = s.slots256 := rfl
@[simp] theorem State.complete_slots512 (c : StatusCode) : (s.complete c).slots512 = s.slots512 := rfl
@[simp] theorem State.complete_scratch256 (c : StatusCode) : (s.complete c).scratch256 = s.scratch256 := rfl
@[simp] theorem State.complete_scratch512 (c : StatusCode) : (s.complete c).scratch512 = s.scratch512 := rfl
@[simp] theorem State.complete_datapath256 (c : StatusCode) : (s.complete c).datapath256 = s.datapath256 := rfl
@[simp] theorem State.complete_datapath512 (c : StatusCode) : (s.complete c).datapath512 = s.datapath512 := rfl
@[simp] theorem State.complete_mem (c : StatusCode) : (s.complete c).mem = s.mem := rfl
@[simp] theorem State.complete_memSize (c : StatusCode) : (s.complete c).memSize = s.memSize := rfl
@[simp] theorem State.complete_regBase (c : StatusCode) : (s.complete c).regBase = s.regBase := rfl
@[simp] theorem State.complete_raced (c : StatusCode) : (s.complete c).raced = [] := rfl
@[simp] theorem State.complete_draws (c : StatusCode) : (s.complete c).draws = s.draws + 1 := rfl
@[simp] theorem State.complete_coins (c : StatusCode) : (s.complete c).coins = s.coins := rfl
@[simp] theorem State.complete_accesses (c : StatusCode) : (s.complete c).accesses = s.accesses := rfl
@[simp] theorem State.complete_hostRead (c : StatusCode) : (s.complete c).hostRead = s.hostRead := rfl
@[simp] theorem State.complete_schedule (c : StatusCode) : (s.complete c).schedule = s.schedule := rfl
@[simp] theorem State.complete_slots (c : StatusCode) (alg' : Alg) : (s.complete c).slots alg' = s.slots alg' := by cases alg' <;> rfl
@[simp] theorem State.complete_scratch (c : StatusCode) (alg' : Alg) : (s.complete c).scratch alg' = s.scratch alg' := by cases alg' <;> rfl
@[simp] theorem State.complete_datapath (c : StatusCode) (alg' : Alg) : (s.complete c).datapath alg' = s.datapath alg' := by cases alg' <;> rfl

/-! ## `recordFault` -/

@[simp] theorem State.recordFault_cmd (c : StatusCode) : (s.recordFault c).cmd = s.cmd := rfl
@[simp] theorem State.recordFault_argALo (c : StatusCode) : (s.recordFault c).argALo = s.argALo := rfl
@[simp] theorem State.recordFault_argAHi (c : StatusCode) : (s.recordFault c).argAHi = s.argAHi := rfl
@[simp] theorem State.recordFault_argBLo (c : StatusCode) : (s.recordFault c).argBLo = s.argBLo := rfl
@[simp] theorem State.recordFault_argBHi (c : StatusCode) : (s.recordFault c).argBHi = s.argBHi := rfl
@[simp] theorem State.recordFault_lenLo (c : StatusCode) : (s.recordFault c).lenLo = s.lenLo := rfl
@[simp] theorem State.recordFault_lenHi (c : StatusCode) : (s.recordFault c).lenHi = s.lenHi := rfl
@[simp] theorem State.recordFault_err (c : StatusCode) : (s.recordFault c).err = s.err := rfl
@[simp] theorem State.recordFault_fault (c : StatusCode) : (s.recordFault c).fault = true := rfl
@[simp] theorem State.recordFault_fcause (c : StatusCode) : (s.recordFault c).fcause = bif s.fault then s.fcause else c.code := rfl
@[simp] theorem State.recordFault_eq (c : StatusCode) : (s.recordFault c).eq = s.eq := rfl
@[simp] theorem State.recordFault_pend (c : StatusCode) : (s.recordFault c).pend = s.pend := rfl
@[simp] theorem State.recordFault_slots256 (c : StatusCode) : (s.recordFault c).slots256 = s.slots256 := rfl
@[simp] theorem State.recordFault_slots512 (c : StatusCode) : (s.recordFault c).slots512 = s.slots512 := rfl
@[simp] theorem State.recordFault_scratch256 (c : StatusCode) : (s.recordFault c).scratch256 = s.scratch256 := rfl
@[simp] theorem State.recordFault_scratch512 (c : StatusCode) : (s.recordFault c).scratch512 = s.scratch512 := rfl
@[simp] theorem State.recordFault_datapath256 (c : StatusCode) : (s.recordFault c).datapath256 = s.datapath256 := rfl
@[simp] theorem State.recordFault_datapath512 (c : StatusCode) : (s.recordFault c).datapath512 = s.datapath512 := rfl
@[simp] theorem State.recordFault_mem (c : StatusCode) : (s.recordFault c).mem = s.mem := rfl
@[simp] theorem State.recordFault_memSize (c : StatusCode) : (s.recordFault c).memSize = s.memSize := rfl
@[simp] theorem State.recordFault_regBase (c : StatusCode) : (s.recordFault c).regBase = s.regBase := rfl
@[simp] theorem State.recordFault_raced (c : StatusCode) : (s.recordFault c).raced = s.raced := rfl
@[simp] theorem State.recordFault_draws (c : StatusCode) : (s.recordFault c).draws = s.draws := rfl
@[simp] theorem State.recordFault_coins (c : StatusCode) : (s.recordFault c).coins = s.coins := rfl
@[simp] theorem State.recordFault_accesses (c : StatusCode) : (s.recordFault c).accesses = s.accesses := rfl
@[simp] theorem State.recordFault_hostRead (c : StatusCode) : (s.recordFault c).hostRead = s.hostRead := rfl
@[simp] theorem State.recordFault_schedule (c : StatusCode) : (s.recordFault c).schedule = s.schedule := rfl
@[simp] theorem State.recordFault_slots (c : StatusCode) (alg' : Alg) : (s.recordFault c).slots alg' = s.slots alg' := by cases alg' <;> rfl
@[simp] theorem State.recordFault_scratch (c : StatusCode) (alg' : Alg) : (s.recordFault c).scratch alg' = s.scratch alg' := by cases alg' <;> rfl
@[simp] theorem State.recordFault_datapath (c : StatusCode) (alg' : Alg) : (s.recordFault c).datapath alg' = s.datapath alg' := by cases alg' <;> rfl

/-! ## `raiseFault` -/

@[simp] theorem State.raiseFault_cmd (c : StatusCode) : (s.raiseFault c).cmd = s.cmd := rfl
@[simp] theorem State.raiseFault_argALo (c : StatusCode) : (s.raiseFault c).argALo = s.argALo := rfl
@[simp] theorem State.raiseFault_argAHi (c : StatusCode) : (s.raiseFault c).argAHi = s.argAHi := rfl
@[simp] theorem State.raiseFault_argBLo (c : StatusCode) : (s.raiseFault c).argBLo = s.argBLo := rfl
@[simp] theorem State.raiseFault_argBHi (c : StatusCode) : (s.raiseFault c).argBHi = s.argBHi := rfl
@[simp] theorem State.raiseFault_lenLo (c : StatusCode) : (s.raiseFault c).lenLo = s.lenLo := rfl
@[simp] theorem State.raiseFault_lenHi (c : StatusCode) : (s.raiseFault c).lenHi = s.lenHi := rfl
@[simp] theorem State.raiseFault_err (c : StatusCode) : (s.raiseFault c).err = c.code := rfl
@[simp] theorem State.raiseFault_fault (c : StatusCode) : (s.raiseFault c).fault = true := rfl
@[simp] theorem State.raiseFault_fcause (c : StatusCode) : (s.raiseFault c).fcause = bif s.fault then s.fcause else c.code := rfl
@[simp] theorem State.raiseFault_eq (c : StatusCode) : (s.raiseFault c).eq = s.eq := rfl
@[simp] theorem State.raiseFault_pend (c : StatusCode) : (s.raiseFault c).pend = none := rfl
@[simp] theorem State.raiseFault_slots256 (c : StatusCode) : (s.raiseFault c).slots256 = s.slots256 := rfl
@[simp] theorem State.raiseFault_slots512 (c : StatusCode) : (s.raiseFault c).slots512 = s.slots512 := rfl
@[simp] theorem State.raiseFault_scratch256 (c : StatusCode) : (s.raiseFault c).scratch256 = s.scratch256 := rfl
@[simp] theorem State.raiseFault_scratch512 (c : StatusCode) : (s.raiseFault c).scratch512 = s.scratch512 := rfl
@[simp] theorem State.raiseFault_datapath256 (c : StatusCode) : (s.raiseFault c).datapath256 = s.datapath256 := rfl
@[simp] theorem State.raiseFault_datapath512 (c : StatusCode) : (s.raiseFault c).datapath512 = s.datapath512 := rfl
@[simp] theorem State.raiseFault_mem (c : StatusCode) : (s.raiseFault c).mem = s.mem := rfl
@[simp] theorem State.raiseFault_memSize (c : StatusCode) : (s.raiseFault c).memSize = s.memSize := rfl
@[simp] theorem State.raiseFault_regBase (c : StatusCode) : (s.raiseFault c).regBase = s.regBase := rfl
@[simp] theorem State.raiseFault_raced (c : StatusCode) : (s.raiseFault c).raced = [] := rfl
@[simp] theorem State.raiseFault_draws (c : StatusCode) : (s.raiseFault c).draws = s.draws + 1 := rfl
@[simp] theorem State.raiseFault_coins (c : StatusCode) : (s.raiseFault c).coins = s.coins := rfl
@[simp] theorem State.raiseFault_accesses (c : StatusCode) : (s.raiseFault c).accesses = s.accesses := rfl
@[simp] theorem State.raiseFault_hostRead (c : StatusCode) : (s.raiseFault c).hostRead = s.hostRead := rfl
@[simp] theorem State.raiseFault_schedule (c : StatusCode) : (s.raiseFault c).schedule = s.schedule := rfl
@[simp] theorem State.raiseFault_slots (c : StatusCode) (alg' : Alg) : (s.raiseFault c).slots alg' = s.slots alg' := by cases alg' <;> rfl
@[simp] theorem State.raiseFault_scratch (c : StatusCode) (alg' : Alg) : (s.raiseFault c).scratch alg' = s.scratch alg' := by cases alg' <;> rfl
@[simp] theorem State.raiseFault_datapath (c : StatusCode) (alg' : Alg) : (s.raiseFault c).datapath alg' = s.datapath alg' := by cases alg' <;> rfl

/-! ## `accept` -/

@[simp] theorem State.accept_cmd (w : Word) : (s.accept w).cmd = w := rfl
@[simp] theorem State.accept_argALo (w : Word) : (s.accept w).argALo = s.argALo := rfl
@[simp] theorem State.accept_argAHi (w : Word) : (s.accept w).argAHi = s.argAHi := rfl
@[simp] theorem State.accept_argBLo (w : Word) : (s.accept w).argBLo = s.argBLo := rfl
@[simp] theorem State.accept_argBHi (w : Word) : (s.accept w).argBHi = s.argBHi := rfl
@[simp] theorem State.accept_lenLo (w : Word) : (s.accept w).lenLo = s.lenLo := rfl
@[simp] theorem State.accept_lenHi (w : Word) : (s.accept w).lenHi = s.lenHi := rfl
@[simp] theorem State.accept_err (w : Word) : (s.accept w).err = s.err := rfl
@[simp] theorem State.accept_fault (w : Word) : (s.accept w).fault = s.fault := rfl
@[simp] theorem State.accept_fcause (w : Word) : (s.accept w).fcause = s.fcause := rfl
@[simp] theorem State.accept_eq (w : Word) : (s.accept w).eq = s.eq := rfl
@[simp] theorem State.accept_pend (w : Word) : (s.accept w).pend = some (s.latch w) := rfl
@[simp] theorem State.accept_slots256 (w : Word) : (s.accept w).slots256 = s.slots256 := rfl
@[simp] theorem State.accept_slots512 (w : Word) : (s.accept w).slots512 = s.slots512 := rfl
@[simp] theorem State.accept_scratch256 (w : Word) : (s.accept w).scratch256 = s.scratch256 := rfl
@[simp] theorem State.accept_scratch512 (w : Word) : (s.accept w).scratch512 = s.scratch512 := rfl
@[simp] theorem State.accept_datapath256 (w : Word) : (s.accept w).datapath256 = s.datapath256 := rfl
@[simp] theorem State.accept_datapath512 (w : Word) : (s.accept w).datapath512 = s.datapath512 := rfl
@[simp] theorem State.accept_mem (w : Word) : (s.accept w).mem = s.mem := rfl
@[simp] theorem State.accept_memSize (w : Word) : (s.accept w).memSize = s.memSize := rfl
@[simp] theorem State.accept_regBase (w : Word) : (s.accept w).regBase = s.regBase := rfl
@[simp] theorem State.accept_raced (w : Word) : (s.accept w).raced = [] := rfl
@[simp] theorem State.accept_draws (w : Word) : (s.accept w).draws = s.draws := rfl
@[simp] theorem State.accept_coins (w : Word) : (s.accept w).coins = s.coins := rfl
@[simp] theorem State.accept_accesses (w : Word) : (s.accept w).accesses = [] := rfl
@[simp] theorem State.accept_hostRead (w : Word) : (s.accept w).hostRead = s.hostRead := rfl
@[simp] theorem State.accept_schedule (w : Word) : (s.accept w).schedule = s.schedule := rfl
@[simp] theorem State.accept_slots (w : Word) (alg' : Alg) : (s.accept w).slots alg' = s.slots alg' := by cases alg' <;> rfl
@[simp] theorem State.accept_scratch (w : Word) (alg' : Alg) : (s.accept w).scratch alg' = s.scratch alg' := by cases alg' <;> rfl
@[simp] theorem State.accept_datapath (w : Word) (alg' : Alg) : (s.accept w).datapath alg' = s.datapath alg' := by cases alg' <;> rfl

/-! ## `afterFetch` -/

@[simp] theorem State.afterFetch_cmd (addr n : Nat) : (s.afterFetch addr n).cmd = s.cmd := rfl
@[simp] theorem State.afterFetch_argALo (addr n : Nat) : (s.afterFetch addr n).argALo = s.argALo := rfl
@[simp] theorem State.afterFetch_argAHi (addr n : Nat) : (s.afterFetch addr n).argAHi = s.argAHi := rfl
@[simp] theorem State.afterFetch_argBLo (addr n : Nat) : (s.afterFetch addr n).argBLo = s.argBLo := rfl
@[simp] theorem State.afterFetch_argBHi (addr n : Nat) : (s.afterFetch addr n).argBHi = s.argBHi := rfl
@[simp] theorem State.afterFetch_lenLo (addr n : Nat) : (s.afterFetch addr n).lenLo = s.lenLo := rfl
@[simp] theorem State.afterFetch_lenHi (addr n : Nat) : (s.afterFetch addr n).lenHi = s.lenHi := rfl
@[simp] theorem State.afterFetch_err (addr n : Nat) : (s.afterFetch addr n).err = s.err := rfl
@[simp] theorem State.afterFetch_fault (addr n : Nat) : (s.afterFetch addr n).fault = s.fault := rfl
@[simp] theorem State.afterFetch_fcause (addr n : Nat) : (s.afterFetch addr n).fcause = s.fcause := rfl
@[simp] theorem State.afterFetch_eq (addr n : Nat) : (s.afterFetch addr n).eq = s.eq := rfl
@[simp] theorem State.afterFetch_pend (addr n : Nat) : (s.afterFetch addr n).pend = s.pend := rfl
@[simp] theorem State.afterFetch_slots256 (addr n : Nat) : (s.afterFetch addr n).slots256 = s.slots256 := rfl
@[simp] theorem State.afterFetch_slots512 (addr n : Nat) : (s.afterFetch addr n).slots512 = s.slots512 := rfl
@[simp] theorem State.afterFetch_scratch256 (addr n : Nat) : (s.afterFetch addr n).scratch256 = s.scratch256 := rfl
@[simp] theorem State.afterFetch_scratch512 (addr n : Nat) : (s.afterFetch addr n).scratch512 = s.scratch512 := rfl
@[simp] theorem State.afterFetch_datapath256 (addr n : Nat) : (s.afterFetch addr n).datapath256 = s.datapath256 := rfl
@[simp] theorem State.afterFetch_datapath512 (addr n : Nat) : (s.afterFetch addr n).datapath512 = s.datapath512 := rfl
@[simp] theorem State.afterFetch_mem (addr n : Nat) : (s.afterFetch addr n).mem = s.mem := rfl
@[simp] theorem State.afterFetch_memSize (addr n : Nat) : (s.afterFetch addr n).memSize = s.memSize := rfl
@[simp] theorem State.afterFetch_regBase (addr n : Nat) : (s.afterFetch addr n).regBase = s.regBase := rfl
@[simp] theorem State.afterFetch_raced (addr n : Nat) : (s.afterFetch addr n).raced = s.raced := rfl
@[simp] theorem State.afterFetch_draws (addr n : Nat) : (s.afterFetch addr n).draws = s.draws := rfl
@[simp] theorem State.afterFetch_coins (addr n : Nat) : (s.afterFetch addr n).coins = s.coins := rfl
@[simp] theorem State.afterFetch_accesses (addr n : Nat) : (s.afterFetch addr n).accesses = s.accesses ++ [.read addr n] := rfl
@[simp] theorem State.afterFetch_hostRead (addr n : Nat) : (s.afterFetch addr n).hostRead = s.hostRead := rfl
@[simp] theorem State.afterFetch_schedule (addr n : Nat) : (s.afterFetch addr n).schedule = s.schedule := rfl
@[simp] theorem State.afterFetch_slots (addr n : Nat) (alg' : Alg) : (s.afterFetch addr n).slots alg' = s.slots alg' := by cases alg' <;> rfl
@[simp] theorem State.afterFetch_scratch (addr n : Nat) (alg' : Alg) : (s.afterFetch addr n).scratch alg' = s.scratch alg' := by cases alg' <;> rfl
@[simp] theorem State.afterFetch_datapath (addr n : Nat) (alg' : Alg) : (s.afterFetch addr n).datapath alg' = s.datapath alg' := by cases alg' <;> rfl

/-! ## `store` -/

@[simp] theorem State.store_cmd (addr : Nat) (bs : List Byte) : (s.store addr bs).cmd = s.cmd := rfl
@[simp] theorem State.store_argALo (addr : Nat) (bs : List Byte) : (s.store addr bs).argALo = s.argALo := rfl
@[simp] theorem State.store_argAHi (addr : Nat) (bs : List Byte) : (s.store addr bs).argAHi = s.argAHi := rfl
@[simp] theorem State.store_argBLo (addr : Nat) (bs : List Byte) : (s.store addr bs).argBLo = s.argBLo := rfl
@[simp] theorem State.store_argBHi (addr : Nat) (bs : List Byte) : (s.store addr bs).argBHi = s.argBHi := rfl
@[simp] theorem State.store_lenLo (addr : Nat) (bs : List Byte) : (s.store addr bs).lenLo = s.lenLo := rfl
@[simp] theorem State.store_lenHi (addr : Nat) (bs : List Byte) : (s.store addr bs).lenHi = s.lenHi := rfl
@[simp] theorem State.store_err (addr : Nat) (bs : List Byte) : (s.store addr bs).err = s.err := rfl
@[simp] theorem State.store_fault (addr : Nat) (bs : List Byte) : (s.store addr bs).fault = s.fault := rfl
@[simp] theorem State.store_fcause (addr : Nat) (bs : List Byte) : (s.store addr bs).fcause = s.fcause := rfl
@[simp] theorem State.store_eq (addr : Nat) (bs : List Byte) : (s.store addr bs).eq = s.eq := rfl
@[simp] theorem State.store_pend (addr : Nat) (bs : List Byte) : (s.store addr bs).pend = s.pend := rfl
@[simp] theorem State.store_slots256 (addr : Nat) (bs : List Byte) : (s.store addr bs).slots256 = s.slots256 := rfl
@[simp] theorem State.store_slots512 (addr : Nat) (bs : List Byte) : (s.store addr bs).slots512 = s.slots512 := rfl
@[simp] theorem State.store_scratch256 (addr : Nat) (bs : List Byte) : (s.store addr bs).scratch256 = s.scratch256 := rfl
@[simp] theorem State.store_scratch512 (addr : Nat) (bs : List Byte) : (s.store addr bs).scratch512 = s.scratch512 := rfl
@[simp] theorem State.store_datapath256 (addr : Nat) (bs : List Byte) : (s.store addr bs).datapath256 = s.datapath256 := rfl
@[simp] theorem State.store_datapath512 (addr : Nat) (bs : List Byte) : (s.store addr bs).datapath512 = s.datapath512 := rfl
@[simp] theorem State.store_mem (addr : Nat) (bs : List Byte) : (s.store addr bs).mem = Memory.writeRaced s.raced s.draws s.mem addr bs := rfl
@[simp] theorem State.store_memSize (addr : Nat) (bs : List Byte) : (s.store addr bs).memSize = s.memSize := rfl
@[simp] theorem State.store_regBase (addr : Nat) (bs : List Byte) : (s.store addr bs).regBase = s.regBase := rfl
@[simp] theorem State.store_raced (addr : Nat) (bs : List Byte) : (s.store addr bs).raced = s.raced := rfl
@[simp] theorem State.store_draws (addr : Nat) (bs : List Byte) : (s.store addr bs).draws = s.draws := rfl
@[simp] theorem State.store_coins (addr : Nat) (bs : List Byte) : (s.store addr bs).coins = s.coins := rfl
@[simp] theorem State.store_accesses (addr : Nat) (bs : List Byte) : (s.store addr bs).accesses = s.accesses ++ [.write addr bs.length] := rfl
@[simp] theorem State.store_hostRead (addr : Nat) (bs : List Byte) : (s.store addr bs).hostRead = s.hostRead := rfl
@[simp] theorem State.store_schedule (addr : Nat) (bs : List Byte) : (s.store addr bs).schedule = s.schedule := rfl
@[simp] theorem State.store_slots (addr : Nat) (bs : List Byte) (alg' : Alg) : (s.store addr bs).slots alg' = s.slots alg' := by cases alg' <;> rfl
@[simp] theorem State.store_scratch (addr : Nat) (bs : List Byte) (alg' : Alg) : (s.store addr bs).scratch alg' = s.scratch alg' := by cases alg' <;> rfl
@[simp] theorem State.store_datapath (addr : Nat) (bs : List Byte) (alg' : Alg) : (s.store addr bs).datapath alg' = s.datapath alg' := by cases alg' <;> rfl

/-! ## `setSlot` -/

@[simp] theorem State.setSlot_cmd (alg : Alg) (i : Nat) (c : Context alg) : (s.setSlot alg i c).cmd = s.cmd := by cases alg <;> rfl
@[simp] theorem State.setSlot_argALo (alg : Alg) (i : Nat) (c : Context alg) : (s.setSlot alg i c).argALo = s.argALo := by cases alg <;> rfl
@[simp] theorem State.setSlot_argAHi (alg : Alg) (i : Nat) (c : Context alg) : (s.setSlot alg i c).argAHi = s.argAHi := by cases alg <;> rfl
@[simp] theorem State.setSlot_argBLo (alg : Alg) (i : Nat) (c : Context alg) : (s.setSlot alg i c).argBLo = s.argBLo := by cases alg <;> rfl
@[simp] theorem State.setSlot_argBHi (alg : Alg) (i : Nat) (c : Context alg) : (s.setSlot alg i c).argBHi = s.argBHi := by cases alg <;> rfl
@[simp] theorem State.setSlot_lenLo (alg : Alg) (i : Nat) (c : Context alg) : (s.setSlot alg i c).lenLo = s.lenLo := by cases alg <;> rfl
@[simp] theorem State.setSlot_lenHi (alg : Alg) (i : Nat) (c : Context alg) : (s.setSlot alg i c).lenHi = s.lenHi := by cases alg <;> rfl
@[simp] theorem State.setSlot_err (alg : Alg) (i : Nat) (c : Context alg) : (s.setSlot alg i c).err = s.err := by cases alg <;> rfl
@[simp] theorem State.setSlot_fault (alg : Alg) (i : Nat) (c : Context alg) : (s.setSlot alg i c).fault = s.fault := by cases alg <;> rfl
@[simp] theorem State.setSlot_fcause (alg : Alg) (i : Nat) (c : Context alg) : (s.setSlot alg i c).fcause = s.fcause := by cases alg <;> rfl
@[simp] theorem State.setSlot_eq (alg : Alg) (i : Nat) (c : Context alg) : (s.setSlot alg i c).eq = s.eq := by cases alg <;> rfl
@[simp] theorem State.setSlot_pend (alg : Alg) (i : Nat) (c : Context alg) : (s.setSlot alg i c).pend = s.pend := by cases alg <;> rfl
@[simp] theorem State.setSlot_scratch256 (alg : Alg) (i : Nat) (c : Context alg) : (s.setSlot alg i c).scratch256 = s.scratch256 := by cases alg <;> rfl
@[simp] theorem State.setSlot_scratch512 (alg : Alg) (i : Nat) (c : Context alg) : (s.setSlot alg i c).scratch512 = s.scratch512 := by cases alg <;> rfl
@[simp] theorem State.setSlot_datapath256 (alg : Alg) (i : Nat) (c : Context alg) : (s.setSlot alg i c).datapath256 = s.datapath256 := by cases alg <;> rfl
@[simp] theorem State.setSlot_datapath512 (alg : Alg) (i : Nat) (c : Context alg) : (s.setSlot alg i c).datapath512 = s.datapath512 := by cases alg <;> rfl
@[simp] theorem State.setSlot_mem (alg : Alg) (i : Nat) (c : Context alg) : (s.setSlot alg i c).mem = s.mem := by cases alg <;> rfl
@[simp] theorem State.setSlot_memSize (alg : Alg) (i : Nat) (c : Context alg) : (s.setSlot alg i c).memSize = s.memSize := by cases alg <;> rfl
@[simp] theorem State.setSlot_regBase (alg : Alg) (i : Nat) (c : Context alg) : (s.setSlot alg i c).regBase = s.regBase := by cases alg <;> rfl
@[simp] theorem State.setSlot_raced (alg : Alg) (i : Nat) (c : Context alg) : (s.setSlot alg i c).raced = s.raced := by cases alg <;> rfl
@[simp] theorem State.setSlot_draws (alg : Alg) (i : Nat) (c : Context alg) : (s.setSlot alg i c).draws = s.draws := by cases alg <;> rfl
@[simp] theorem State.setSlot_coins (alg : Alg) (i : Nat) (c : Context alg) : (s.setSlot alg i c).coins = s.coins := by cases alg <;> rfl
@[simp] theorem State.setSlot_accesses (alg : Alg) (i : Nat) (c : Context alg) : (s.setSlot alg i c).accesses = s.accesses := by cases alg <;> rfl
@[simp] theorem State.setSlot_hostRead (alg : Alg) (i : Nat) (c : Context alg) : (s.setSlot alg i c).hostRead = s.hostRead := by cases alg <;> rfl
@[simp] theorem State.setSlot_schedule (alg : Alg) (i : Nat) (c : Context alg) : (s.setSlot alg i c).schedule = s.schedule := by cases alg <;> rfl
@[simp] theorem State.setSlot_scratch (alg : Alg) (i : Nat) (c : Context alg) (alg' : Alg) : (s.setSlot alg i c).scratch alg' = s.scratch alg' := by cases alg <;> cases alg' <;> rfl
@[simp] theorem State.setSlot_datapath (alg : Alg) (i : Nat) (c : Context alg) (alg' : Alg) : (s.setSlot alg i c).datapath alg' = s.datapath alg' := by cases alg <;> cases alg' <;> rfl

/-! ## `setScratch` -/

@[simp] theorem State.setScratch_cmd (alg : Alg) (c : Context alg) : (s.setScratch alg c).cmd = s.cmd := by cases alg <;> rfl
@[simp] theorem State.setScratch_argALo (alg : Alg) (c : Context alg) : (s.setScratch alg c).argALo = s.argALo := by cases alg <;> rfl
@[simp] theorem State.setScratch_argAHi (alg : Alg) (c : Context alg) : (s.setScratch alg c).argAHi = s.argAHi := by cases alg <;> rfl
@[simp] theorem State.setScratch_argBLo (alg : Alg) (c : Context alg) : (s.setScratch alg c).argBLo = s.argBLo := by cases alg <;> rfl
@[simp] theorem State.setScratch_argBHi (alg : Alg) (c : Context alg) : (s.setScratch alg c).argBHi = s.argBHi := by cases alg <;> rfl
@[simp] theorem State.setScratch_lenLo (alg : Alg) (c : Context alg) : (s.setScratch alg c).lenLo = s.lenLo := by cases alg <;> rfl
@[simp] theorem State.setScratch_lenHi (alg : Alg) (c : Context alg) : (s.setScratch alg c).lenHi = s.lenHi := by cases alg <;> rfl
@[simp] theorem State.setScratch_err (alg : Alg) (c : Context alg) : (s.setScratch alg c).err = s.err := by cases alg <;> rfl
@[simp] theorem State.setScratch_fault (alg : Alg) (c : Context alg) : (s.setScratch alg c).fault = s.fault := by cases alg <;> rfl
@[simp] theorem State.setScratch_fcause (alg : Alg) (c : Context alg) : (s.setScratch alg c).fcause = s.fcause := by cases alg <;> rfl
@[simp] theorem State.setScratch_eq (alg : Alg) (c : Context alg) : (s.setScratch alg c).eq = s.eq := by cases alg <;> rfl
@[simp] theorem State.setScratch_pend (alg : Alg) (c : Context alg) : (s.setScratch alg c).pend = s.pend := by cases alg <;> rfl
@[simp] theorem State.setScratch_slots256 (alg : Alg) (c : Context alg) : (s.setScratch alg c).slots256 = s.slots256 := by cases alg <;> rfl
@[simp] theorem State.setScratch_slots512 (alg : Alg) (c : Context alg) : (s.setScratch alg c).slots512 = s.slots512 := by cases alg <;> rfl
@[simp] theorem State.setScratch_datapath256 (alg : Alg) (c : Context alg) : (s.setScratch alg c).datapath256 = s.datapath256 := by cases alg <;> rfl
@[simp] theorem State.setScratch_datapath512 (alg : Alg) (c : Context alg) : (s.setScratch alg c).datapath512 = s.datapath512 := by cases alg <;> rfl
@[simp] theorem State.setScratch_mem (alg : Alg) (c : Context alg) : (s.setScratch alg c).mem = s.mem := by cases alg <;> rfl
@[simp] theorem State.setScratch_memSize (alg : Alg) (c : Context alg) : (s.setScratch alg c).memSize = s.memSize := by cases alg <;> rfl
@[simp] theorem State.setScratch_regBase (alg : Alg) (c : Context alg) : (s.setScratch alg c).regBase = s.regBase := by cases alg <;> rfl
@[simp] theorem State.setScratch_raced (alg : Alg) (c : Context alg) : (s.setScratch alg c).raced = s.raced := by cases alg <;> rfl
@[simp] theorem State.setScratch_draws (alg : Alg) (c : Context alg) : (s.setScratch alg c).draws = s.draws := by cases alg <;> rfl
@[simp] theorem State.setScratch_coins (alg : Alg) (c : Context alg) : (s.setScratch alg c).coins = s.coins := by cases alg <;> rfl
@[simp] theorem State.setScratch_accesses (alg : Alg) (c : Context alg) : (s.setScratch alg c).accesses = s.accesses := by cases alg <;> rfl
@[simp] theorem State.setScratch_hostRead (alg : Alg) (c : Context alg) : (s.setScratch alg c).hostRead = s.hostRead := by cases alg <;> rfl
@[simp] theorem State.setScratch_schedule (alg : Alg) (c : Context alg) : (s.setScratch alg c).schedule = s.schedule := by cases alg <;> rfl
@[simp] theorem State.setScratch_slots (alg : Alg) (c : Context alg) (alg' : Alg) : (s.setScratch alg c).slots alg' = s.slots alg' := by cases alg <;> cases alg' <;> rfl
@[simp] theorem State.setScratch_datapath (alg : Alg) (c : Context alg) (alg' : Alg) : (s.setScratch alg c).datapath alg' = s.datapath alg' := by cases alg <;> cases alg' <;> rfl

/-! ## `wipeScratch` -/

@[simp] theorem State.wipeScratch_cmd (alg : Alg) : (s.wipeScratch alg).cmd = s.cmd := by cases alg <;> rfl
@[simp] theorem State.wipeScratch_argALo (alg : Alg) : (s.wipeScratch alg).argALo = s.argALo := by cases alg <;> rfl
@[simp] theorem State.wipeScratch_argAHi (alg : Alg) : (s.wipeScratch alg).argAHi = s.argAHi := by cases alg <;> rfl
@[simp] theorem State.wipeScratch_argBLo (alg : Alg) : (s.wipeScratch alg).argBLo = s.argBLo := by cases alg <;> rfl
@[simp] theorem State.wipeScratch_argBHi (alg : Alg) : (s.wipeScratch alg).argBHi = s.argBHi := by cases alg <;> rfl
@[simp] theorem State.wipeScratch_lenLo (alg : Alg) : (s.wipeScratch alg).lenLo = s.lenLo := by cases alg <;> rfl
@[simp] theorem State.wipeScratch_lenHi (alg : Alg) : (s.wipeScratch alg).lenHi = s.lenHi := by cases alg <;> rfl
@[simp] theorem State.wipeScratch_err (alg : Alg) : (s.wipeScratch alg).err = s.err := by cases alg <;> rfl
@[simp] theorem State.wipeScratch_fault (alg : Alg) : (s.wipeScratch alg).fault = s.fault := by cases alg <;> rfl
@[simp] theorem State.wipeScratch_fcause (alg : Alg) : (s.wipeScratch alg).fcause = s.fcause := by cases alg <;> rfl
@[simp] theorem State.wipeScratch_eq (alg : Alg) : (s.wipeScratch alg).eq = s.eq := by cases alg <;> rfl
@[simp] theorem State.wipeScratch_pend (alg : Alg) : (s.wipeScratch alg).pend = s.pend := by cases alg <;> rfl
@[simp] theorem State.wipeScratch_slots256 (alg : Alg) : (s.wipeScratch alg).slots256 = s.slots256 := by cases alg <;> rfl
@[simp] theorem State.wipeScratch_slots512 (alg : Alg) : (s.wipeScratch alg).slots512 = s.slots512 := by cases alg <;> rfl
@[simp] theorem State.wipeScratch_datapath256 (alg : Alg) : (s.wipeScratch alg).datapath256 = s.datapath256 := by cases alg <;> rfl
@[simp] theorem State.wipeScratch_datapath512 (alg : Alg) : (s.wipeScratch alg).datapath512 = s.datapath512 := by cases alg <;> rfl
@[simp] theorem State.wipeScratch_mem (alg : Alg) : (s.wipeScratch alg).mem = s.mem := by cases alg <;> rfl
@[simp] theorem State.wipeScratch_memSize (alg : Alg) : (s.wipeScratch alg).memSize = s.memSize := by cases alg <;> rfl
@[simp] theorem State.wipeScratch_regBase (alg : Alg) : (s.wipeScratch alg).regBase = s.regBase := by cases alg <;> rfl
@[simp] theorem State.wipeScratch_raced (alg : Alg) : (s.wipeScratch alg).raced = s.raced := by cases alg <;> rfl
@[simp] theorem State.wipeScratch_draws (alg : Alg) : (s.wipeScratch alg).draws = s.draws := by cases alg <;> rfl
@[simp] theorem State.wipeScratch_coins (alg : Alg) : (s.wipeScratch alg).coins = s.coins := by cases alg <;> rfl
@[simp] theorem State.wipeScratch_accesses (alg : Alg) : (s.wipeScratch alg).accesses = s.accesses := by cases alg <;> rfl
@[simp] theorem State.wipeScratch_hostRead (alg : Alg) : (s.wipeScratch alg).hostRead = s.hostRead := by cases alg <;> rfl
@[simp] theorem State.wipeScratch_schedule (alg : Alg) : (s.wipeScratch alg).schedule = s.schedule := by cases alg <;> rfl
@[simp] theorem State.wipeScratch_slots (alg : Alg) (alg' : Alg) : (s.wipeScratch alg).slots alg' = s.slots alg' := by cases alg <;> cases alg' <;> rfl
@[simp] theorem State.wipeScratch_datapath (alg : Alg) (alg' : Alg) : (s.wipeScratch alg).datapath alg' = s.datapath alg' := by cases alg <;> cases alg' <;> rfl

/-! ## `clearDatapath` -/

@[simp] theorem State.clearDatapath_cmd (alg : Alg) : (s.clearDatapath alg).cmd = s.cmd := by cases alg <;> rfl
@[simp] theorem State.clearDatapath_argALo (alg : Alg) : (s.clearDatapath alg).argALo = s.argALo := by cases alg <;> rfl
@[simp] theorem State.clearDatapath_argAHi (alg : Alg) : (s.clearDatapath alg).argAHi = s.argAHi := by cases alg <;> rfl
@[simp] theorem State.clearDatapath_argBLo (alg : Alg) : (s.clearDatapath alg).argBLo = s.argBLo := by cases alg <;> rfl
@[simp] theorem State.clearDatapath_argBHi (alg : Alg) : (s.clearDatapath alg).argBHi = s.argBHi := by cases alg <;> rfl
@[simp] theorem State.clearDatapath_lenLo (alg : Alg) : (s.clearDatapath alg).lenLo = s.lenLo := by cases alg <;> rfl
@[simp] theorem State.clearDatapath_lenHi (alg : Alg) : (s.clearDatapath alg).lenHi = s.lenHi := by cases alg <;> rfl
@[simp] theorem State.clearDatapath_err (alg : Alg) : (s.clearDatapath alg).err = s.err := by cases alg <;> rfl
@[simp] theorem State.clearDatapath_fault (alg : Alg) : (s.clearDatapath alg).fault = s.fault := by cases alg <;> rfl
@[simp] theorem State.clearDatapath_fcause (alg : Alg) : (s.clearDatapath alg).fcause = s.fcause := by cases alg <;> rfl
@[simp] theorem State.clearDatapath_eq (alg : Alg) : (s.clearDatapath alg).eq = s.eq := by cases alg <;> rfl
@[simp] theorem State.clearDatapath_pend (alg : Alg) : (s.clearDatapath alg).pend = s.pend := by cases alg <;> rfl
@[simp] theorem State.clearDatapath_slots256 (alg : Alg) : (s.clearDatapath alg).slots256 = s.slots256 := by cases alg <;> rfl
@[simp] theorem State.clearDatapath_slots512 (alg : Alg) : (s.clearDatapath alg).slots512 = s.slots512 := by cases alg <;> rfl
@[simp] theorem State.clearDatapath_scratch256 (alg : Alg) : (s.clearDatapath alg).scratch256 = s.scratch256 := by cases alg <;> rfl
@[simp] theorem State.clearDatapath_scratch512 (alg : Alg) : (s.clearDatapath alg).scratch512 = s.scratch512 := by cases alg <;> rfl
@[simp] theorem State.clearDatapath_mem (alg : Alg) : (s.clearDatapath alg).mem = s.mem := by cases alg <;> rfl
@[simp] theorem State.clearDatapath_memSize (alg : Alg) : (s.clearDatapath alg).memSize = s.memSize := by cases alg <;> rfl
@[simp] theorem State.clearDatapath_regBase (alg : Alg) : (s.clearDatapath alg).regBase = s.regBase := by cases alg <;> rfl
@[simp] theorem State.clearDatapath_raced (alg : Alg) : (s.clearDatapath alg).raced = s.raced := by cases alg <;> rfl
@[simp] theorem State.clearDatapath_draws (alg : Alg) : (s.clearDatapath alg).draws = s.draws := by cases alg <;> rfl
@[simp] theorem State.clearDatapath_coins (alg : Alg) : (s.clearDatapath alg).coins = s.coins := by cases alg <;> rfl
@[simp] theorem State.clearDatapath_accesses (alg : Alg) : (s.clearDatapath alg).accesses = s.accesses := by cases alg <;> rfl
@[simp] theorem State.clearDatapath_hostRead (alg : Alg) : (s.clearDatapath alg).hostRead = s.hostRead := by cases alg <;> rfl
@[simp] theorem State.clearDatapath_schedule (alg : Alg) : (s.clearDatapath alg).schedule = s.schedule := by cases alg <;> rfl
@[simp] theorem State.clearDatapath_slots (alg : Alg) (alg' : Alg) : (s.clearDatapath alg).slots alg' = s.slots alg' := by cases alg <;> cases alg' <;> rfl
@[simp] theorem State.clearDatapath_scratch (alg : Alg) (alg' : Alg) : (s.clearDatapath alg).scratch alg' = s.scratch alg' := by cases alg <;> cases alg' <;> rfl

/-! ## The banks, the scratch contexts and the datapaths -/

@[simp] theorem State.setSlot_slots_self (alg : Alg) (i : Nat) (c : Context alg) :
    (s.setSlot alg i c).slots alg = (s.slots alg).set i c := by cases alg <;> rfl

theorem State.setSlot_slots_other {alg alg' : Alg} (h : alg' ≠ alg) (i : Nat) (c : Context alg) :
    (s.setSlot alg i c).slots alg' = s.slots alg' := by cases alg <;> cases alg' <;> first | rfl | exact absurd rfl h

@[simp] theorem State.setSlot_nCtx (alg alg' : Alg) (i : Nat) (c : Context alg) :
    (s.setSlot alg i c).nCtx alg' = s.nCtx alg' := by
  cases alg <;> cases alg' <;> simp [State.nCtx, State.setSlot, State.setSlots, State.slots]

@[simp] theorem State.setScratch_scratch_self (alg : Alg) (c : Context alg) :
    (s.setScratch alg c).scratch alg = c := by cases alg <;> rfl

theorem State.setScratch_scratch_other {alg alg' : Alg} (h : alg' ≠ alg) (c : Context alg) :
    (s.setScratch alg c).scratch alg' = s.scratch alg' := by
  cases alg <;> cases alg' <;> first | rfl | exact absurd rfl h

@[simp] theorem State.wipeScratch_scratch_self (alg : Alg) :
    (s.wipeScratch alg).scratch alg = (s.scratch alg).wipe := by cases alg <;> rfl

theorem State.wipeScratch_scratch_other {alg alg' : Alg} (h : alg' ≠ alg) :
    (s.wipeScratch alg).scratch alg' = s.scratch alg' := by
  cases alg <;> cases alg' <;> first | rfl | exact absurd rfl h

@[simp] theorem State.clearDatapath_datapath_self (alg : Alg) :
    (s.clearDatapath alg).datapath alg = Datapath.zero alg := by cases alg <;> rfl

theorem State.clearDatapath_datapath_other {alg alg' : Alg} (h : alg' ≠ alg) :
    (s.clearDatapath alg).datapath alg' = s.datapath alg' := by
  cases alg <;> cases alg' <;> first | rfl | exact absurd rfl h

/-- Clearing a datapath that is already clear changes nothing. -/
theorem State.clearDatapath_datapath (h : ∀ alg, s.datapath alg = Datapath.zero alg) (alg alg' : Alg) :
    (s.clearDatapath alg).datapath alg' = Datapath.zero alg' := by
  cases alg <;> cases alg' <;> first | rfl | exact h .sha256 | exact h .sha512

/-- A slot after one slot was set. -/
theorem State.setSlot_slots_get (alg alg' : Alg) (i j : Nat) (c : Context alg) (h : alg' = alg → j ≠ i) :
    ((s.setSlot alg i c).slots alg')[j]? = (s.slots alg')[j]? := by
  by_cases e : alg' = alg
  · subst e; simp [List.getElem?_set_ne (h rfl).symm]
  · rw [s.setSlot_slots_other e]

/-! ## What the executing command reads its operands from does not change while it runs -/

@[simp] theorem State.begin_current : (s.begin).current = s.current := rfl
@[simp] theorem State.begin_opA : (s.begin).opA = s.opA := rfl
@[simp] theorem State.begin_opB : (s.begin).opB = s.opB := rfl
@[simp] theorem State.begin_opLen : (s.begin).opLen = s.opLen := rfl
@[simp] theorem State.begin_inRange (a k : Nat) : (s.begin).inRange a k = s.inRange a k := rfl
@[simp] theorem State.setEq_current (v : Bool) : (s.setEq v).current = s.current := rfl
@[simp] theorem State.setEq_opA (v : Bool) : (s.setEq v).opA = s.opA := rfl
@[simp] theorem State.setEq_opB (v : Bool) : (s.setEq v).opB = s.opB := rfl
@[simp] theorem State.setEq_opLen (v : Bool) : (s.setEq v).opLen = s.opLen := rfl
@[simp] theorem State.setEq_inRange (v : Bool) (a k : Nat) : (s.setEq v).inRange a k = s.inRange a k := rfl
@[simp] theorem State.afterFetch_current (addr n : Nat) : (s.afterFetch addr n).current = s.current := rfl
@[simp] theorem State.afterFetch_opA (addr n : Nat) : (s.afterFetch addr n).opA = s.opA := rfl
@[simp] theorem State.afterFetch_opB (addr n : Nat) : (s.afterFetch addr n).opB = s.opB := rfl
@[simp] theorem State.afterFetch_opLen (addr n : Nat) : (s.afterFetch addr n).opLen = s.opLen := rfl
@[simp] theorem State.afterFetch_inRange (addr n : Nat) (a k : Nat) : (s.afterFetch addr n).inRange a k = s.inRange a k := rfl
@[simp] theorem State.store_current (addr : Nat) (bs : List Byte) : (s.store addr bs).current = s.current := rfl
@[simp] theorem State.store_opA (addr : Nat) (bs : List Byte) : (s.store addr bs).opA = s.opA := rfl
@[simp] theorem State.store_opB (addr : Nat) (bs : List Byte) : (s.store addr bs).opB = s.opB := rfl
@[simp] theorem State.store_opLen (addr : Nat) (bs : List Byte) : (s.store addr bs).opLen = s.opLen := rfl
@[simp] theorem State.store_inRange (addr : Nat) (bs : List Byte) (a k : Nat) : (s.store addr bs).inRange a k = s.inRange a k := rfl
@[simp] theorem State.setSlot_current (alg : Alg) (i : Nat) (c : Context alg) : (s.setSlot alg i c).current = s.current := by cases alg <;> rfl
@[simp] theorem State.setSlot_opA (alg : Alg) (i : Nat) (c : Context alg) : (s.setSlot alg i c).opA = s.opA := by cases alg <;> rfl
@[simp] theorem State.setSlot_opB (alg : Alg) (i : Nat) (c : Context alg) : (s.setSlot alg i c).opB = s.opB := by cases alg <;> rfl
@[simp] theorem State.setSlot_opLen (alg : Alg) (i : Nat) (c : Context alg) : (s.setSlot alg i c).opLen = s.opLen := by cases alg <;> rfl
@[simp] theorem State.setSlot_inRange (alg : Alg) (i : Nat) (c : Context alg) (a k : Nat) : (s.setSlot alg i c).inRange a k = s.inRange a k := by cases alg <;> rfl
@[simp] theorem State.setScratch_current (alg : Alg) (c : Context alg) : (s.setScratch alg c).current = s.current := by cases alg <;> rfl
@[simp] theorem State.setScratch_opA (alg : Alg) (c : Context alg) : (s.setScratch alg c).opA = s.opA := by cases alg <;> rfl
@[simp] theorem State.setScratch_opB (alg : Alg) (c : Context alg) : (s.setScratch alg c).opB = s.opB := by cases alg <;> rfl
@[simp] theorem State.setScratch_opLen (alg : Alg) (c : Context alg) : (s.setScratch alg c).opLen = s.opLen := by cases alg <;> rfl
@[simp] theorem State.setScratch_inRange (alg : Alg) (c : Context alg) (a k : Nat) : (s.setScratch alg c).inRange a k = s.inRange a k := by cases alg <;> rfl
@[simp] theorem State.wipeScratch_current (alg : Alg) : (s.wipeScratch alg).current = s.current := by cases alg <;> rfl
@[simp] theorem State.wipeScratch_opA (alg : Alg) : (s.wipeScratch alg).opA = s.opA := by cases alg <;> rfl
@[simp] theorem State.wipeScratch_opB (alg : Alg) : (s.wipeScratch alg).opB = s.opB := by cases alg <;> rfl
@[simp] theorem State.wipeScratch_opLen (alg : Alg) : (s.wipeScratch alg).opLen = s.opLen := by cases alg <;> rfl
@[simp] theorem State.wipeScratch_inRange (alg : Alg) (a k : Nat) : (s.wipeScratch alg).inRange a k = s.inRange a k := by cases alg <;> rfl
@[simp] theorem State.clearDatapath_current (alg : Alg) : (s.clearDatapath alg).current = s.current := by cases alg <;> rfl
@[simp] theorem State.clearDatapath_opA (alg : Alg) : (s.clearDatapath alg).opA = s.opA := by cases alg <;> rfl
@[simp] theorem State.clearDatapath_opB (alg : Alg) : (s.clearDatapath alg).opB = s.opB := by cases alg <;> rfl
@[simp] theorem State.clearDatapath_opLen (alg : Alg) : (s.clearDatapath alg).opLen = s.opLen := by cases alg <;> rfl
@[simp] theorem State.clearDatapath_inRange (alg : Alg) (a k : Nat) : (s.clearDatapath alg).inRange a k = s.inRange a k := by cases alg <;> rfl
@[simp] theorem State.begin_fetched (a k : Nat) : (s.begin).fetched a k = s.fetched a k := rfl
@[simp] theorem State.afterFetch_fetched (addr n : Nat) (a k : Nat) : (s.afterFetch addr n).fetched a k = s.fetched a k := rfl
@[simp] theorem State.setScratch_fetched (alg : Alg) (c : Context alg) (a k : Nat) : (s.setScratch alg c).fetched a k = s.fetched a k := by cases alg <;> rfl
@[simp] theorem State.begin_handle (alg : Alg) (pc : Bool) (ctx : Nat) : s.begin.handle alg pc ctx = s.handle alg pc ctx := by
  cases alg <;> rfl

/-! ## The banks keep their sizes -/

@[simp] theorem State.begin_nCtx (alg' : Alg) : (s.begin).nCtx alg' = s.nCtx alg' := by cases alg' <;> rfl
@[simp] theorem State.setEq_nCtx (v : Bool) (alg' : Alg) : (s.setEq v).nCtx alg' = s.nCtx alg' := by cases alg' <;> rfl
@[simp] theorem State.complete_nCtx (c : StatusCode) (alg' : Alg) : (s.complete c).nCtx alg' = s.nCtx alg' := by cases alg' <;> rfl
@[simp] theorem State.raiseFault_nCtx (c : StatusCode) (alg' : Alg) : (s.raiseFault c).nCtx alg' = s.nCtx alg' := by cases alg' <;> rfl
@[simp] theorem State.accept_nCtx (w : Word) (alg' : Alg) : (s.accept w).nCtx alg' = s.nCtx alg' := by cases alg' <;> rfl
@[simp] theorem State.afterFetch_nCtx (addr n : Nat) (alg' : Alg) : (s.afterFetch addr n).nCtx alg' = s.nCtx alg' := by cases alg' <;> rfl
@[simp] theorem State.store_nCtx (addr : Nat) (bs : List Byte) (alg' : Alg) : (s.store addr bs).nCtx alg' = s.nCtx alg' := by cases alg' <;> rfl
@[simp] theorem State.setScratch_nCtx (alg : Alg) (c : Context alg) (alg' : Alg) : (s.setScratch alg c).nCtx alg' = s.nCtx alg' := by cases alg <;> cases alg' <;> rfl
@[simp] theorem State.wipeScratch_nCtx (alg : Alg) (alg' : Alg) : (s.wipeScratch alg).nCtx alg' = s.nCtx alg' := by cases alg <;> cases alg' <;> rfl
@[simp] theorem State.clearDatapath_nCtx (alg : Alg) (alg' : Alg) : (s.clearDatapath alg).nCtx alg' = s.nCtx alg' := by cases alg <;> cases alg' <;> rfl

end Sys2Proof.Machine
end

