-- ==== Sys2Proof/Laws/Commands.lean ====
section
/-! SUPPORT. What each command can do, said once: one case lemma per command, whose cases are the paths of its pseudocode with the
conditions under which each is taken (spec/41_hasher.md R143 to R146, spec/43_encoding_utils.md R202, R204). A later proof takes
the cases and never unfolds a command. -/

namespace Sys2Proof.Machine

/-! ## `exec` of an instruction, by operation -/

theorem exec_init (alg : Alg) (ctx : Nat) (pc : Bool) (s : State) :
    exec (.init alg ctx pc) s = .next (initCommand alg ctx pc s) := by cases alg <;> rfl

theorem exec_update (alg : Alg) (ctx : Nat) (pa pc : Bool) (s : State) :
    exec (.update alg ctx pa pc) s = .next (updateCommand alg ctx pa pc s) := by cases alg <;> rfl

theorem exec_final (alg : Alg) (ctx : Nat) (pb pc : Bool) (s : State) :
    exec (.final alg ctx pb pc) s = .next (finalCommand alg ctx pb pc s) := by cases alg <;> rfl

theorem exec_oneshot (alg : Alg) (pa pb : Bool) (s : State) :
    exec (.oneshot alg pa pb) s = .next (oneshotCommand alg pa pb s) := by cases alg <;> rfl

theorem exec_tohex (alg : Alg) (pa pb : Bool) (s : State) :
    exec (.tohex alg pa pb) s = .next (tohexCommand alg pa pb s) := by cases alg <;> rfl

theorem exec_ctcmp (alg : Alg) (pa pb : Bool) (s : State) :
    exec (.ctcmp alg pa pb) s = .next (ctcmpCommand alg pa pb s) := by cases alg <;> rfl

/-- A claim about every instruction is a claim about six operations, each for either algorithm. -/
theorem Instr.byOperation {P : Instr → Prop} (init : ∀ alg ctx pc, P (.init alg ctx pc))
    (update : ∀ alg ctx pa pc, P (.update alg ctx pa pc)) (final : ∀ alg ctx pb pc, P (.final alg ctx pb pc))
    (oneshot : ∀ alg pa pb, P (.oneshot alg pa pb)) (tohex : ∀ alg pa pb, P (.tohex alg pa pb))
    (ctcmp : ∀ alg pa pb, P (.ctcmp alg pa pb)) (i : Instr) : P i := by
  cases i with
  | init256 ctx pc => exact init .sha256 ctx pc
  | init512 ctx pc => exact init .sha512 ctx pc
  | update256 ctx pa pc => exact update .sha256 ctx pa pc
  | update512 ctx pa pc => exact update .sha512 ctx pa pc
  | final256 ctx pb pc => exact final .sha256 ctx pb pc
  | final512 ctx pb pc => exact final .sha512 ctx pb pc
  | oneshot256 pa pb => exact oneshot .sha256 pa pb
  | oneshot512 pa pb => exact oneshot .sha512 pa pb
  | tohex256 pa pb => exact tohex .sha256 pa pb
  | tohex512 pa pb => exact tohex .sha512 pa pb
  | ctcmp256 pa pb => exact ctcmp .sha256 pa pb
  | ctcmp512 pa pb => exact ctcmp .sha512 pa pb

@[simp] theorem namedSlot_init (alg : Alg) (ctx : Nat) (pc : Bool) : Instr.namedSlot (.init alg ctx pc) = some (alg, ctx) := by
  cases alg <;> rfl

@[simp] theorem namedSlot_update (alg : Alg) (ctx : Nat) (pa pc : Bool) :
    Instr.namedSlot (.update alg ctx pa pc) = some (alg, ctx) := by cases alg <;> rfl

@[simp] theorem namedSlot_final (alg : Alg) (ctx : Nat) (pb pc : Bool) :
    Instr.namedSlot (.final alg ctx pb pc) = some (alg, ctx) := by cases alg <;> rfl

@[simp] theorem namedSlot_oneshot (alg : Alg) (pa pb : Bool) : Instr.namedSlot (.oneshot alg pa pb) = none := by cases alg <;> rfl

@[simp] theorem namedSlot_tohex (alg : Alg) (pa pb : Bool) : Instr.namedSlot (.tohex alg pa pb) = none := by cases alg <;> rfl

@[simp] theorem namedSlot_ctcmp (alg : Alg) (pa pb : Bool) : Instr.namedSlot (.ctcmp alg pa pb) = none := by cases alg <;> rfl

/-! ## The context handle (R78) -/

theorem State.handle_eq_some {s : State} {alg : Alg} {pc : Bool} {ctx : Nat} {c : Context alg} :
    s.handle alg pc ctx = some c ↔ pc = true ∧ (s.slots alg)[ctx]? = some c := by
  cases pc with
  | false => simp [State.handle, State.ctxValid]
  | true =>
    simp only [State.handle, State.ctxValid, Bool.true_and, decide_eq_true_eq, true_and]
    split
    · rfl
    · simp [List.getElem?_eq_none (Nat.le_of_not_lt ‹_› : (s.slots alg).length ≤ ctx)]

theorem State.handle_eq_none {s : State} {alg : Alg} {pc : Bool} {ctx : Nat} :
    s.handle alg pc ctx = none ↔ ¬(pc = true ∧ ctx < s.nCtx alg) := by
  cases pc with
  | false => simp [State.handle, State.ctxValid]
  | true =>
    simp only [State.handle, State.ctxValid, Bool.true_and, decide_eq_true_eq, true_and]
    split
    · rename_i h
      simpa [h] using (show ctx < (s.slots alg).length from h)
    · simp [‹¬ctx < s.nCtx alg›]

theorem counterFits_eq_true {alg : Alg} {bc n : Nat} : counterFits alg bc n = true ↔ bc + 8 * n ≤ 2 ^ alg.counterWidth - 1 := by
  simp only [counterFits, decide_eq_true_eq]

theorem counterFits_eq_false {alg : Alg} {bc n : Nat} : counterFits alg bc n = false ↔ 2 ^ alg.counterWidth - 1 < bc + 8 * n := by
  simp only [counterFits, decide_eq_false_iff_not, not_le]

theorem State.inRange_eq_true {s : State} {addr n : Nat} : s.inRange addr n = true ↔ n = 0 ∨ addr + n ≤ s.memSize := by
  simp only [State.inRange, decide_eq_true_eq]

theorem State.inRange_eq_false {s : State} {addr n : Nat} : s.inRange addr n = false ↔ n ≠ 0 ∧ s.memSize < addr + n := by
  simp only [State.inRange, decide_eq_false_iff_not, not_or, not_le, ne_eq]

/-! ## The paths of each command -/

/-- INIT (R143). -/
theorem initCommand_cases (alg : Alg) (ctx : Nat) (pc : Bool) (s : State) :
    (¬(pc = true ∧ ctx < s.nCtx alg) ∧ initCommand alg ctx pc s = s.begin.complete .nullContext) ∨
    (pc = true ∧ ctx < s.nCtx alg ∧
      initCommand alg ctx pc s = (s.begin.setSlot alg ctx (Context.init alg)).complete .ok) := by
  unfold initCommand
  cases h : s.begin.handle alg pc ctx with
  | none => exact .inl ⟨by simpa using State.handle_eq_none.1 h, rfl⟩
  | some c =>
    obtain ⟨h1, h2⟩ := State.handle_eq_some.1 h
    exact .inr ⟨h1, by simpa [State.nCtx] using (List.getElem?_eq_some_iff.1 h2).1, rfl⟩

/-- UPDATE (R144). -/
theorem updateCommand_cases (alg : Alg) (ctx : Nat) (pa pc : Bool) (s : State) :
    (¬(pc = true ∧ ctx < s.nCtx alg) ∧ updateCommand alg ctx pa pc s = s.begin.complete .nullContext) ∨
    ∃ c, pc = true ∧ (s.slots alg)[ctx]? = some c ∧
      ((pa = false ∧ 0 < s.opLen ∧ updateCommand alg ctx pa pc s = s.begin.complete .nullData) ∨
      ((pa = true ∨ s.opLen = 0) ∧ c.live = false ∧
        updateCommand alg ctx pa pc s = s.begin.raiseFault .contractViolation) ∨
      (c.live = true ∧ s.opLen = 0 ∧
        updateCommand alg ctx pa pc s = (s.begin.setSlot alg ctx { c with life := .accum }).complete .ok) ∨
      (pa = true ∧ c.live = true ∧ 0 < s.opLen ∧ counterFits alg c.bitCount.toNat s.opLen = false ∧
        updateCommand alg ctx pa pc s = (s.begin.setSlot alg ctx c.wipe).complete .counterOverflow) ∨
      (pa = true ∧ c.live = true ∧ 0 < s.opLen ∧ counterFits alg c.bitCount.toNat s.opLen = true ∧
        s.inRange s.opA s.opLen = false ∧ updateCommand alg ctx pa pc s = s.begin.raiseFault .busError) ∨
      (pa = true ∧ c.live = true ∧ 0 < s.opLen ∧ counterFits alg c.bitCount.toNat s.opLen = true ∧
        s.inRange s.opA s.opLen = true ∧
        updateCommand alg ctx pa pc s =
          (((s.begin.afterFetch s.opA s.opLen).setSlot alg ctx (c.append (s.fetched s.opA s.opLen))).clearDatapath
            alg).complete .ok)) := by
  unfold updateCommand
  cases h : s.begin.handle alg pc ctx with
  | none => exact .inl ⟨by simpa using State.handle_eq_none.1 h, rfl⟩
  | some c =>
    obtain ⟨h1, h2⟩ := State.handle_eq_some.1 h
    refine .inr ⟨c, h1, by simpa using h2, ?_⟩
    have e : updateSlot alg ctx pa c s.begin = if pa = false ∧ 0 < s.opLen then s.begin.complete .nullData
      else if c.live = false then s.begin.raiseFault .contractViolation
      else if s.opLen = 0 then (s.begin.setSlot alg ctx { c with life := .accum }).complete .ok
      else if counterFits alg c.bitCount.toNat s.opLen = false then (s.begin.setSlot alg ctx c.wipe).complete .counterOverflow
      else if s.inRange s.opA s.opLen = false then s.begin.raiseFault .busError
      else (((s.begin.afterFetch s.opA s.opLen).setSlot alg ctx (c.append (s.fetched s.opA s.opLen))).clearDatapath
        alg).complete .ok := rfl
    change _ ∧ _ ∧ updateSlot alg ctx pa c s.begin = _ ∨ _ ∧ _ ∧ updateSlot alg ctx pa c s.begin = _ ∨
      _ ∧ _ ∧ updateSlot alg ctx pa c s.begin = _ ∨ _ ∧ _ ∧ _ ∧ _ ∧ updateSlot alg ctx pa c s.begin = _ ∨
      _ ∧ _ ∧ _ ∧ _ ∧ _ ∧ updateSlot alg ctx pa c s.begin = _ ∨ _ ∧ _ ∧ _ ∧ _ ∧ _ ∧ updateSlot alg ctx pa c s.begin = _
    rw [e]
    by_cases a1 : pa = false ∧ 0 < s.opLen
    · exact .inl ⟨a1.1, a1.2, by rw [if_pos a1]⟩
    have a1' : pa = true ∨ s.opLen = 0 := by cases pa <;> simp_all
    rw [if_neg a1]
    by_cases a2 : c.live = false
    · exact .inr (.inl ⟨a1', a2, by rw [if_pos a2]⟩)
    have a2' : c.live = true := by simpa using a2
    rw [if_neg a2]
    by_cases a3 : s.opLen = 0
    · exact .inr (.inr (.inl ⟨a2', a3, by rw [if_pos a3]⟩))
    have a3' : pa = true ∧ 0 < s.opLen := ⟨a1'.resolve_right a3, Nat.pos_of_ne_zero a3⟩
    rw [if_neg a3]
    by_cases a4 : counterFits alg c.bitCount.toNat s.opLen = false
    · exact .inr (.inr (.inr (.inl ⟨a3'.1, a2', a3'.2, a4, by rw [if_pos a4]⟩)))
    rw [if_neg a4]
    by_cases a5 : s.inRange s.opA s.opLen = false
    · exact .inr (.inr (.inr (.inr (.inl ⟨a3'.1, a2', a3'.2, by simpa using a4, a5, by rw [if_pos a5]⟩))))
    exact .inr (.inr (.inr (.inr (.inr ⟨a3'.1, a2', a3'.2, by simpa using a4, by simpa using a5, by rw [if_neg a5]⟩))))

/-- FINAL (R145). -/
theorem finalCommand_cases (alg : Alg) (ctx : Nat) (pb pc : Bool) (s : State) :
    (¬(pc = true ∧ ctx < s.nCtx alg) ∧ finalCommand alg ctx pb pc s = s.begin.complete .nullContext) ∨
    ∃ c, pc = true ∧ (s.slots alg)[ctx]? = some c ∧
      ((pb = false ∧ finalCommand alg ctx pb pc s = (s.begin.setSlot alg ctx c.wipe).complete .nullOutput) ∨
      (pb = true ∧ c.live = false ∧ finalCommand alg ctx pb pc s = s.begin.raiseFault .contractViolation) ∨
      (pb = true ∧ c.live = true ∧ s.inRange s.opB alg.digestSize = false ∧
        finalCommand alg ctx pb pc s = s.begin.raiseFault .busError) ∨
      (pb = true ∧ c.live = true ∧ s.inRange s.opB alg.digestSize = true ∧
        finalCommand alg ctx pb pc s =
          (((s.begin.setSlot alg ctx c.wipe).clearDatapath alg).store s.opB c.finalize).complete .ok)) := by
  unfold finalCommand
  cases h : s.begin.handle alg pc ctx with
  | none => exact .inl ⟨by simpa using State.handle_eq_none.1 h, rfl⟩
  | some c =>
    obtain ⟨h1, h2⟩ := State.handle_eq_some.1 h
    refine .inr ⟨c, h1, by simpa using h2, ?_⟩
    have e : finalSlot alg ctx pb c s.begin = if pb = false then (s.begin.setSlot alg ctx c.wipe).complete .nullOutput
      else if c.live = false then s.begin.raiseFault .contractViolation
      else if s.inRange s.opB alg.digestSize = false then s.begin.raiseFault .busError
      else (((s.begin.setSlot alg ctx c.wipe).clearDatapath alg).store s.opB c.finalize).complete .ok := rfl
    change _ ∧ finalSlot alg ctx pb c s.begin = _ ∨ _ ∧ _ ∧ finalSlot alg ctx pb c s.begin = _ ∨
      _ ∧ _ ∧ _ ∧ finalSlot alg ctx pb c s.begin = _ ∨ _ ∧ _ ∧ _ ∧ finalSlot alg ctx pb c s.begin = _
    rw [e]
    by_cases a1 : pb = false
    · exact .inl ⟨a1, by rw [if_pos a1]⟩
    have a1' : pb = true := by simpa using a1
    rw [if_neg a1]
    by_cases a2 : c.live = false
    · exact .inr (.inl ⟨a1', a2, by rw [if_pos a2]⟩)
    have a2' : c.live = true := by simpa using a2
    rw [if_neg a2]
    by_cases a3 : s.inRange s.opB alg.digestSize = false
    · exact .inr (.inr (.inl ⟨a1', a2', a3, by rw [if_pos a3]⟩))
    exact .inr (.inr (.inr ⟨a1', a2', by simpa using a3, by rw [if_neg a3]⟩))

/-- ONESHOT (R146). -/
theorem oneshotCommand_cases (alg : Alg) (pa pb : Bool) (s : State) :
    (pa = false ∧ 0 < s.opLen ∧ oneshotCommand alg pa pb s = ((oneshotBegin alg s).wipeScratch alg).complete .nullData) ∨
    ((pa = true ∨ s.opLen = 0) ∧ counterFits alg 0 s.opLen = false ∧
      oneshotCommand alg pa pb s = ((oneshotBegin alg s).wipeScratch alg).complete .counterOverflow) ∨
    ((pa = true ∨ s.opLen = 0) ∧ counterFits alg 0 s.opLen = true ∧
      (s.inRange s.opA s.opLen = false ∨
        s.inRange s.opA s.opLen = true ∧ pb = true ∧ s.inRange s.opB alg.digestSize = false) ∧
      oneshotCommand alg pa pb s = ((oneshotBegin alg s).wipeScratch alg).raiseFault .busError) ∨
    ((pa = true ∨ s.opLen = 0) ∧ counterFits alg 0 s.opLen = true ∧ s.inRange s.opA s.opLen = true ∧ pb = false ∧
      oneshotCommand alg pa pb s = ((oneshotAbsorb alg (oneshotBegin alg s)).wipeScratch alg).complete .nullOutput) ∨
    ((pa = true ∨ s.opLen = 0) ∧ counterFits alg 0 s.opLen = true ∧ s.inRange s.opA s.opLen = true ∧ pb = true ∧
      s.inRange s.opB alg.digestSize = true ∧
      oneshotCommand alg pa pb s =
        ((((oneshotAbsorb alg (oneshotBegin alg s)).wipeScratch alg).clearDatapath alg).store s.opB
          (oneshotContext alg s).finalize).complete .ok) := by
  have e1 : oneshotContext alg (oneshotBegin alg s) = oneshotContext alg s := by
    simp [oneshotContext, oneshotBegin]
  have e2 : (oneshotAbsorb alg (oneshotBegin alg s)).opB = s.opB := by
    unfold oneshotAbsorb; split <;> simp [oneshotBegin]
  have e3 : (oneshotAbsorb alg (oneshotBegin alg s)).scratch alg = oneshotContext alg s := by
    simp [oneshotAbsorb, e1]
  unfold oneshotCommand
  change _ ∧ _ ∧ oneshotUpdate alg pa pb (oneshotBegin alg s) = _ ∨ _ ∧ _ ∧ oneshotUpdate alg pa pb (oneshotBegin alg s) = _ ∨
    _ ∧ _ ∧ _ ∧ oneshotUpdate alg pa pb (oneshotBegin alg s) = _ ∨
    _ ∧ _ ∧ _ ∧ _ ∧ oneshotUpdate alg pa pb (oneshotBegin alg s) = _ ∨
    _ ∧ _ ∧ _ ∧ _ ∧ _ ∧ oneshotUpdate alg pa pb (oneshotBegin alg s) = _
  have l : (oneshotBegin alg s).opLen = s.opLen := by simp [oneshotBegin]
  have a : (oneshotBegin alg s).opA = s.opA := by simp [oneshotBegin]
  have b : (oneshotBegin alg s).opB = s.opB := by simp [oneshotBegin]
  have r : ∀ x n, (oneshotBegin alg s).inRange x n = s.inRange x n := fun x n => by simp [oneshotBegin]
  unfold oneshotUpdate
  rw [l, a, b, r, r]
  by_cases a1 : pa = false ∧ 0 < s.opLen
  · exact .inl ⟨a1.1, a1.2, by rw [if_pos a1]⟩
  have a1' : pa = true ∨ s.opLen = 0 := by cases pa <;> simp_all
  rw [if_neg a1]
  by_cases a2 : counterFits alg 0 s.opLen = false
  · exact .inr (.inl ⟨a1', a2, by rw [if_pos a2]⟩)
  have a2' : counterFits alg 0 s.opLen = true := by simpa using a2
  rw [if_neg a2]
  by_cases a3 : s.inRange s.opA s.opLen = false
  · exact .inr (.inr (.inl ⟨a1', a2', .inl a3, by rw [if_pos a3]⟩))
  have a3' : s.inRange s.opA s.opLen = true := by simpa using a3
  rw [if_neg a3]
  by_cases a4 : pb = true ∧ s.inRange s.opB alg.digestSize = false
  · exact .inr (.inr (.inl ⟨a1', a2', .inr ⟨a3', a4⟩, by rw [if_pos a4]⟩))
  rw [if_neg a4]
  unfold oneshotFinal
  by_cases a5 : pb = false
  · exact .inr (.inr (.inr (.inl ⟨a1', a2', a3', a5, by rw [if_pos a5]⟩)))
  have a5' : pb = true := by simpa using a5
  rw [if_neg a5, e2, e3]
  exact .inr (.inr (.inr (.inr ⟨a1', a2', a3', a5', by simpa [a5'] using a4, rfl⟩)))

/-- The digest ONESHOT writes is that of INIT and UPDATE on its input, for an empty input too (R146). -/
theorem oneshotContext_finalize (alg : Alg) (s : State) :
    (oneshotContext alg s).finalize = ((Context.init alg).append (s.fetched s.opA s.opLen)).finalize := by
  unfold oneshotContext
  split
  · rfl
  · rw [show s.fetched s.opA s.opLen = [] by simp [State.fetched, show s.opLen = 0 by omega]]
    congr 1

/-- TOHEX (R202). -/
theorem tohexCommand_cases (alg : Alg) (pa pb : Bool) (s : State) :
    (¬(pa = true ∧ pb = true) ∧ tohexCommand alg pa pb s = s.begin.complete .nullInput) ∨
    (pa = true ∧ pb = true ∧ (s.inRange s.opA alg.digestSize = false ∨ s.inRange s.opB (2 * alg.digestSize) = false) ∧
      tohexCommand alg pa pb s = s.begin.raiseFault .busError) ∨
    (pa = true ∧ pb = true ∧ s.inRange s.opA alg.digestSize = true ∧ s.inRange s.opB (2 * alg.digestSize) = true ∧
      tohexCommand alg pa pb s =
        ((s.begin.afterFetch s.opA alg.digestSize).store s.opB (toHex (s.fetched s.opA alg.digestSize))).complete .ok) := by
  unfold tohexCommand
  by_cases a1 : pa = false ∨ pb = false
  · exact .inl ⟨by rcases a1 with rfl | rfl <;> simp, by rw [if_pos a1]⟩
  have a1' : pa = true ∧ pb = true := by simpa using a1
  rw [if_neg a1]
  by_cases a2 : s.inRange s.opA alg.digestSize = false ∨ s.inRange s.opB (2 * alg.digestSize) = false
  · exact .inr (.inl ⟨a1'.1, a1'.2, a2, by rw [if_pos a2]⟩)
  rw [if_neg a2]
  exact .inr (.inr ⟨a1'.1, a1'.2, by simpa using fun h => a2 (.inl h), by simpa using fun h => a2 (.inr h), rfl⟩)

/-- CTCMP (R204). -/
theorem ctcmpCommand_cases (alg : Alg) (pa pb : Bool) (s : State) :
    (¬(pa = true ∧ pb = true) ∧ ctcmpCommand alg pa pb s = (s.begin.setEq false).complete .nullInput) ∨
    (pa = true ∧ pb = true ∧ (s.inRange s.opA alg.digestSize = false ∨ s.inRange s.opB alg.digestSize = false) ∧
      ctcmpCommand alg pa pb s = s.begin.raiseFault .busError) ∨
    (pa = true ∧ pb = true ∧ s.inRange s.opA alg.digestSize = true ∧ s.inRange s.opB alg.digestSize = true ∧
      ctcmpCommand alg pa pb s =
        (((s.begin.afterFetch s.opA alg.digestSize).afterFetch s.opB alg.digestSize).setEq
          (ctEq (s.fetched s.opA alg.digestSize) (s.fetched s.opB alg.digestSize))).complete .ok) := by
  unfold ctcmpCommand
  by_cases a1 : pa = false ∨ pb = false
  · exact .inl ⟨by rcases a1 with rfl | rfl <;> simp, by rw [if_pos a1]⟩
  have a1' : pa = true ∧ pb = true := by simpa using a1
  rw [if_neg a1]
  by_cases a2 : s.inRange s.opA alg.digestSize = false ∨ s.inRange s.opB alg.digestSize = false
  · exact .inr (.inl ⟨a1'.1, a1'.2, a2, by rw [if_pos a2]⟩)
  rw [if_neg a2]
  exact .inr (.inr ⟨a1'.1, a1'.2, by simpa using fun h => a2 (.inl h), by simpa using fun h => a2 (.inr h), rfl⟩)

/-! ## What the shared operations do, in the terms of Safety -/

/-- What a command takes each byte as, raced or not (R257). -/
theorem State.inputByte_mayTake (s : State) : MayTake s s.inputByte := fun _ h => if_neg h

/-- What a command reads is its bytes, each taken once. -/
theorem State.fetched_eq_takenAt (s : State) (addr n : Nat) : s.fetched addr n = takenAt s.inputByte addr n := rfl

/-- With nothing raced a command reads the bytes as they stand. -/
theorem State.fetched_eq_bytesAt {s : State} (h : s.raced = []) (addr n : Nat) : s.fetched addr n = s.bytesAt addr n :=
  State.fetched_unraced h addr n

/-- A command's write changes no byte outside its range. -/
theorem State.store_onlyBytes (s : State) (addr : Nat) (bs : List Byte) : OnlyBytes addr bs.length s (s.store addr bs) :=
  fun _ h => Memory.read_writeRaced_outside _ _ _ _ _ h

/-- A byte a command wrote ends as the command's, or, only where it was raced, as the host's (R258). -/
theorem State.store_endsAs (s : State) (addr : Nat) (bs : List Byte) : EndsAs s (s.store addr bs) addr bs :=
  fun k h => Memory.read_writeRaced_inside _ _ _ _ _ k h

/-- With nothing raced, the bytes a command wrote are there. -/
theorem State.store_holdsBytes {s : State} (h : s.raced = []) (addr : Nat) (bs : List Byte) :
    HoldsBytes (s.store addr bs) addr bs := fun k hk =>
  (s.store_endsAs addr bs k hk).resolve_right fun r => by simp [h] at r

/-- At a turn of the core, given by the schedule or with no turn left, the step is the core's, with the later turns left. -/
theorem CoreNext.step_eq {s : State} {rest : List Turn} (h : CoreNext s rest) : step s = coreTurn { s with schedule := rest } := by
  rcases h with h | ⟨h, rfl⟩
  · simp only [step, h]
  · cases s; cases h; rfl

/-- Setting a slot changes no other. -/
theorem State.setSlot_onlySlot (s : State) (alg : Alg) (i : Nat) (c : Context alg) : OnlySlot alg i s (s.setSlot alg i c) :=
  ⟨fun _ => by simp, fun alg' j h => s.setSlot_slots_get alg alg' i j c h⟩

end Sys2Proof.Machine
end

