-- ==== Sys2Proof/Laws/PerInstr.lean ====
section
/-! SUPPORT. Statements made per instruction. `OwnRow`: a well-formed instruction's word matches the row of the opcode map that
bears its mnemonic (spec/30_encoding.md R86). -/

namespace Sys2Proof.Laws.OwnRow

/-- The word of a well-formed instruction matches its own row. -/
def Statement (i : Instr) : Prop := i.WellFormed → i.row.matches (encode i) = true

/-- A slot index that fits CTX is one of sixteen. -/
theorem of_every_ctx {P : Nat → Prop} (h : ∀ c : Fin 16, P c.val) {ctx : Nat} (hc : decide (ctx < 16) = true) : P ctx :=
  h ⟨ctx, of_decide_eq_true hc⟩

theorem init256 (ctx : Nat) (pc : Bool) : Statement (.init256 ctx pc) := by
  refine of_every_ctx (P := fun c => (Instr.row (.init256 c pc)).matches (encode (.init256 c pc)) = true) ?_
  cases pc <;> decide

theorem init512 (ctx : Nat) (pc : Bool) : Statement (.init512 ctx pc) := by
  refine of_every_ctx (P := fun c => (Instr.row (.init512 c pc)).matches (encode (.init512 c pc)) = true) ?_
  cases pc <;> decide

theorem update256 (ctx : Nat) (pa pc : Bool) : Statement (.update256 ctx pa pc) := by
  refine of_every_ctx (P := fun c => (Instr.row (.update256 c pa pc)).matches (encode (.update256 c pa pc)) = true) ?_
  cases pa <;> cases pc <;> decide

theorem update512 (ctx : Nat) (pa pc : Bool) : Statement (.update512 ctx pa pc) := by
  refine of_every_ctx (P := fun c => (Instr.row (.update512 c pa pc)).matches (encode (.update512 c pa pc)) = true) ?_
  cases pa <;> cases pc <;> decide

theorem final256 (ctx : Nat) (pb pc : Bool) : Statement (.final256 ctx pb pc) := by
  refine of_every_ctx (P := fun c => (Instr.row (.final256 c pb pc)).matches (encode (.final256 c pb pc)) = true) ?_
  cases pb <;> cases pc <;> decide

theorem final512 (ctx : Nat) (pb pc : Bool) : Statement (.final512 ctx pb pc) := by
  refine of_every_ctx (P := fun c => (Instr.row (.final512 c pb pc)).matches (encode (.final512 c pb pc)) = true) ?_
  cases pb <;> cases pc <;> decide

theorem oneshot256 (pa pb : Bool) : Statement (.oneshot256 pa pb) := by
  intro _; cases pa <;> cases pb <;> decide

theorem oneshot512 (pa pb : Bool) : Statement (.oneshot512 pa pb) := by
  intro _; cases pa <;> cases pb <;> decide

theorem tohex256 (pa pb : Bool) : Statement (.tohex256 pa pb) := by
  intro _; cases pa <;> cases pb <;> decide

theorem tohex512 (pa pb : Bool) : Statement (.tohex512 pa pb) := by
  intro _; cases pa <;> cases pb <;> decide

theorem ctcmp256 (pa pb : Bool) : Statement (.ctcmp256 pa pb) := by
  intro _; cases pa <;> cases pb <;> decide

theorem ctcmp512 (pa pb : Bool) : Statement (.ctcmp512 pa pb) := by
  intro _; cases pa <;> cases pb <;> decide

end Sys2Proof.Laws.OwnRow
end

