-- ==== Sys2Proof/Tests/Slice0.lean ====
section
/-! SUPPORT. Tests of the model, and for each statement with hypotheses a witness that meets them. Expected values come from the
worked examples of spec/30_encoding.md R86, spec/41_hasher.md R143 to R146, spec/43_encoding_utils.md and the vectors of
spec/95_test_vectors.md. -/

namespace Sys2Proof.Tests

open Sys2Proof.Machine

-- One theorem after another: checked side by side, their threads take more memory than a build has.
set_option Elab.async false

/-! ## Small states -/

/-- A machine with these bytes written, these operands in the argument registers, and `c256`, `c512` in slot 0 of the banks. -/
def machine (mem : Memory) (A B LEN : Nat) (c256 : Context .sha256) (c512 : Context .sha512) : State :=
  { State.reset with
    mem := mem
    argALo := BitVec.ofNat 32 A, argAHi := BitVec.ofNat 32 (A / 2 ^ 32)
    argBLo := BitVec.ofNat 32 B, argBHi := BitVec.ofNat 32 (B / 2 ^ 32)
    lenLo := BitVec.ofNat 32 LEN, lenHi := BitVec.ofNat 32 (LEN / 2 ^ 32)
    slots256 := State.reset.slots256.set 0 c256
    slots512 := State.reset.slots512.set 0 c512 }

/-- A machine whose slots 0 were just initialised. -/
def ready (mem : Memory) (A B LEN : Nat) : State := machine mem A B LEN (Context.init .sha256) (Context.init .sha512)

/-- A machine whose slots are as reset leaves them. -/
def idle (mem : Memory) (A B LEN : Nat) : State := machine mem A B LEN (Context.zero .sha256) (Context.zero .sha512)

/-- The bytes `61 62 63`, "abc", at 0x100. -/
def abc : Memory := [(0x100, 0x61), (0x101, 0x62), (0x102, 0x63)]

/-- `n` bytes of one value at an address. -/
def fill (addr n : Nat) (b : Byte) : Memory := (List.range n).map fun k => (addr + k, b)

/-- The state an instruction leads to. -/
def after (i : Instr) (s : State) : Option State :=
  match exec i s with
  | .next t => some t
  | .fault _ => none
  | .refused _ => none

/-- The state a step leads to. -/
def stepped (s : State) : Option State :=
  match step s with
  | .next t => some t
  | .fault _ => none
  | .refused _ => none

/-- Some bytes of a state's buffer memory, and ERR. -/
def bytesAndErr (addr n : Nat) (t : Option State) : Option (List (Option Byte) × BitVec 4) :=
  t.map fun t => ((List.range n).map fun k => t.mem.lookup (addr + k), t.err)

/-! ## Well-formedness: a slot index that does not fit CTX is refused -/

theorem test_wf_refuses_init256 : Instr.wf (.init256 16 true) = false := by decide
theorem test_wf_refuses_init512 : Instr.wf (.init512 16 true) = false := by decide
theorem test_wf_refuses_update256 : Instr.wf (.update256 16 true true) = false := by decide
theorem test_wf_refuses_update512 : Instr.wf (.update512 16 true true) = false := by decide
theorem test_wf_refuses_final256 : Instr.wf (.final256 16 true true) = false := by decide
theorem test_wf_refuses_final512 : Instr.wf (.final512 16 true true) = false := by decide

/-! ## Decoding: words written out from R70, R71 and R86 -/

theorem test_decode_init256 : decode 0b00000000000000000100111100000000 = .ok (.init256 15 true) := by decide
theorem test_decode_init512 : decode 0b00000000000000000100001000010000 = .ok (.init512 2 true) := by decide
theorem test_decode_update256 : decode 0b00000000000000000101000000000001 = .ok (.update256 0 true true) := by decide
theorem test_decode_update512 : decode 0b00000000000000000100010100010001 = .ok (.update512 5 false true) := by decide
theorem test_decode_final256 : decode 0b00000000000000000110000000000010 = .ok (.final256 0 true true) := by decide
theorem test_decode_final512 : decode 0b00000000000000000010101000010010 = .ok (.final512 10 true false) := by decide
theorem test_decode_oneshot256 : decode 0b00000000000000000001000000000011 = .ok (.oneshot256 true false) := by decide
theorem test_decode_oneshot512 : decode 0b00000000000000000011000000010011 = .ok (.oneshot512 true true) := by decide
theorem test_decode_tohex256 : decode 0b00000000000000000011000000000100 = .ok (.tohex256 true true) := by decide
theorem test_decode_tohex512 : decode 0b00000000000000000010000000010100 = .ok (.tohex512 false true) := by decide
theorem test_decode_ctcmp256 : decode 0b00000000000000000001000000000101 = .ok (.ctcmp256 true false) := by decide
theorem test_decode_ctcmp512 : decode 0b00000000000000000011000000010101 = .ok (.ctcmp512 true true) := by decide

theorem test_decode_reserved_low : decode 0x00004020 = .error .reservedBits := by decide
theorem test_decode_reserved_high : decode 0x0000C000 = .error .reservedBits := by decide
theorem test_decode_reserved_op : decode 0x00000006 = .error .reservedOp := by decide
theorem test_decode_unused_field : decode 0x00003103 = .error .unusedField := by decide

theorem test_decodeTableWord : decodeTableWord 32 0x4210 = some (.init512 2 true) := by decide

/-! ## One step of each instruction -/

/-- R143's example: `INIT.256 c0`. -/
theorem test_init256 : (after (.init256 0 true) (idle [] 0 0 0)).map (fun t => (t.slots256.map (fun c => c.H[0]), t.err)) =
    some ([0x6a09e667, 0, 0, 0], 0) := by decide

theorem test_init512_last_word : (after (.init512 3 true) (idle [] 0 0 0)).map (fun t => t.slots512.map (fun c => c.H[7])) =
    some [0, 0, 0, 0x5be0cd19137e2179] := by decide

/-- R144's example: `UPDATE.256 c0, [0x100], 3`. -/
theorem test_update256 : (after (.update256 0 true true) (ready abc 0x100 0 3)).map (fun t =>
    (t.slots256.head?.map fun c => (c.bitCount, c.pending, c.life), t.err)) =
    some (some (24, [0x61, 0x62, 0x63], .accum), 0) := by decide +kernel

theorem test_update256_outside : (after (.update256 0 true true) (ready abc 0xFFFE 0 3)).map (fun t =>
    (t.err, t.fault, t.fcause)) = some (8, true, 8) := by decide +kernel

theorem test_update512 : (after (.update512 0 true true) (ready abc 0x101 0 2)).map (fun t =>
    (t.slots512.head?.map fun c => (c.bitCount, c.pending, c.life), t.err)) =
    some (some (16, [0x62, 0x63], .accum), 0) := by decide +kernel

theorem test_update512_uninit : (after (.update512 0 true true) (idle abc 0x100 0 3)).map (fun t => (t.err, t.fcause)) =
    some (7, 7) := by decide +kernel

/-- R145's corner case: FINAL right after INIT writes the digest of the empty message, `e3b0c442…`. -/
theorem test_final256_empty : bytesAndErr 0x200 4 (after (.final256 0 true true) (ready [] 0 0x200 0)) =
    some ([some 0xe3, some 0xb0, some 0xc4, some 0x42], 0) := by decide +kernel

theorem test_final256_wipes : (after (.final256 0 false true) (ready [] 0 0 0)).map (fun t =>
    (t.slots256.head?.map fun c => (c.H[0], c.life), t.err)) = some (some (0, .finalized), 3) := by decide +kernel

/-- The digest of the empty message, `cf83e135…`. -/
theorem test_final512_empty : bytesAndErr 0xFFC0 4 (after (.final512 0 true true) (ready [] 0 0xFFC0 0)) =
    some ([some 0xcf, some 0x83, some 0xe1, some 0x35], 0) := by decide +kernel

/-- The digest of "abc", `ba7816bf…f20015ad`, written over its input. -/
theorem test_oneshot256_abc : bytesAndErr 0x100 4 (after (.oneshot256 true true) (idle abc 0x100 0x100 3)) =
    some ([some 0xba, some 0x78, some 0x16, some 0xbf], 0) := by decide +kernel

theorem test_oneshot256_nullData_first : (after (.oneshot256 false false) (idle abc 0x100 0 3)).map (·.err) =
    some 2 := by decide +kernel

/-- R146's example: the end of `ddaf35a1…a54ca49f` at 0x33C. -/
theorem test_oneshot512_abc : bytesAndErr 0x33C 4 (after (.oneshot512 true true) (idle abc 0x100 0x300 3)) =
    some ([some 0xa5, some 0x4c, some 0xa4, some 0x9f], 0) := by decide +kernel

theorem test_tohex256 : bytesAndErr 0x43E 3 (after (.tohex256 true true) (idle (fill 0x200 32 0xa9) 0x200 0x400 0)) =
    some ([some 0x61, some 0x39, none], 0) := by decide +kernel

/-- Overlapping ranges, `B = A`: the input is read first (R60). -/
theorem test_tohex512_in_place : bytesAndErr 0x27E 3 (after (.tohex512 true true) (idle (fill 0x200 64 0x0f) 0x200 0x200 0)) =
    some ([some 0x30, some 0x66, none], 0) := by decide +kernel

theorem test_ctcmp256_last_byte : (after (.ctcmp256 true true)
    (idle (fill 0x200 32 0x55 ++ fill 0x500 31 0x55 ++ [(0x51F, 0x54)]) 0x200 0x500 0)).map (fun t => (t.eq, t.err)) =
    some (false, 0) := by decide +kernel

theorem test_ctcmp512_equal : (after (.ctcmp512 true true)
    (idle (fill 0x200 64 0x55 ++ fill 0x500 64 0x55) 0x200 0x500 0)).map (fun t => (t.eq, t.err)) =
    some (true, 0) := by decide +kernel

/-! ## The window, the core's turn, reset -/

/-- A host stores `INIT.256 c0` to CMD: BUSY reads 1, and the core's turn then executes it. -/
theorem test_cmd_store_and_turn :
    (stepped { idle [] 0 0 0 with schedule := [.host (.storeReg .word 0 0x4000)] }).map (fun t => (t.statusWord, t.cmd)) =
      some (0x80000000, 0x4000) ∧
    (stepped ((idle [] 0 0 0).withFetchWord 32 0x4000)).map (fun t => (t.statusWord, t.slots256.head?.map (·.life))) =
      some (0, some .ready) := by decide +kernel

/-- A store to LEN_LO while BUSY = 1 is a BusyWrite fault: STATUS reads FCAUSE 9, FAULT 1, BUSY 1 (R224). -/
theorem test_busy_write :
    (stepped { (idle [] 0 0 7).accept 0x4000 with schedule := [.host (.storeReg .word 0x18 5)] }).map
      (fun t => (t.statusWord, t.lenLo)) = some (0x80009100, 7) := by decide +kernel

theorem test_illegal_word : (stepped ((idle [] 0 0 0).withFetchWord 32 0x6)).map (fun t => t.statusWord) =
    some 0x00006106 := by decide +kernel

theorem test_reset_keeps_memory : (stepped { idle abc 1 2 3 with schedule := [.reset] }).map
    (fun t => (t.argALo, t.mem)) = some (0, abc) := by decide +kernel

theorem test_reset_mem_wf : State.reset.mem.wf := by decide

/-! ## Witnesses: for each statement with hypotheses, inputs that meet them, at the boundary values of its clauses -/

theorem witness_DecodeOfEncodeIsTheInstruction : Instr.WellFormed (.init256 15 true) ∧ Instr.WellFormed (.update512 0 true false) ∧
    Instr.WellFormed (.ctcmp512 false true) := by decide

theorem witness_EncodeOfDecodeIsTheWord : decode 0x00006F12 = .ok (.final512 15 true true) := by decide

theorem witness_WordIsACommandExactlyWhenItMatchesOneRow : decode 0x00000000 = .ok (.init256 0 false) ∧
    decode 0x00003015 = .ok (.ctcmp512 true true) := by decide

/-- Each clause, at the first and last bit of its ranges. -/
theorem witness_ReservedAndUnusedFieldsAreIllegal :
    (0x00000020 : Word).getLsbD 5 = true ∧ (0x00000080 : Word).getLsbD 7 = true ∧ (0x00008000 : Word).getLsbD 15 = true ∧
    (0x80000000 : Word).getLsbD 31 = true ∧
    ((0x1000 : Word).extractLsb' 0 4 = 0 ∧ (0x1000 : Word).getLsbD 12 = true) ∧
    ((0x2001 : Word).extractLsb' 0 4 = 1 ∧ (0x2001 : Word).getLsbD 13 = true) ∧
    ((0x1002 : Word).extractLsb' 0 4 = 2 ∧ (0x1002 : Word).getLsbD 12 = true) ∧
    ((0x0103 : Word).extractLsb' 0 4 = 3 ∧ (0x0103 : Word).extractLsb' 8 4 ≠ 0) ∧
    ((0x4005 : Word).extractLsb' 0 4 = 5 ∧ (0x4005 : Word).getLsbD 14 = true) := by decide

/-- `INIT.256 c0` is pending, and the core's turn is next or the schedule is empty; the last command word there is. -/
theorem witness_StepRunsTheDecodedCommand :
    (((idle [] 0 0 0).accept 0x4000).pend = some ((idle [] 0 0 0).latch 0x4000) ∧ decode 0x4000 = .ok (.init256 0 true) ∧
      ((idle [] 0 0 0).accept 0x4000).schedule = [] ∧ ((idle [] 0 0 0).withFetchWord 32 0x4000).schedule = [.core]) ∧
    (0x7FFF < 2 ^ 32 ∧ decode (BitVec.ofNat 32 0x6F12) = .ok (.final512 15 true true)) :=
  ⟨⟨rfl, by decide, rfl, rfl⟩, by decide⟩

/-- With no turn left, and with the core's turn next and a poll behind it, as R85 produces it. -/
theorem witness_IllegalWordCompletesWithIllegalCommand :
    (((idle [] 0 0 0).accept 6).pend = some ((idle [] 0 0 0).latch 6) ∧ decode 6 = .error .reservedOp ∧
      CoreNext ((idle [] 0 0 0).accept 6) [] ∧
      CoreNext { (idle [] 0 0 0).accept 6 with schedule := [.core, .host .poll] } [.host .poll]) ∧
    6 ≤ ((6 : Word).extractLsb' 0 4).toNat ∧ 6 ≤ ((15 : Word).extractLsb' 0 4).toNat :=
  ⟨⟨rfl, by decide, .inr ⟨rfl, rfl⟩, .inl rfl⟩, by decide⟩

/-- Three pending commands: one ends OK, one with the last error code, 5, one with the first fault code, 6; the core's turn is
next, or no turn is left. -/
theorem witness_PendingCommandEndsByCompleteOrFault :
    (((idle [] 0 0 0).accept 0x4000).pend = some ((idle [] 0 0 0).latch 0x4000) ∧ CoreNext ((idle [] 0 0 0).accept 0x4000) [] ∧
      CoreNext ((idle [] 0 0 0).withFetchWord 32 0x0006) []) ∧
    (stepped ((idle [] 0 0 0).accept 0x4000)).map (·.err) = some 0 ∧
    (stepped ((idle [] 0 0 0).withFetchWord 32 0x0005)).map (·.err) = some 5 ∧
    (stepped ((idle [] 0 0 0).withFetchWord 32 0x0006)).map (·.err) = some 6 :=
  ⟨⟨rfl, .inr ⟨rfl, rfl⟩, .inl rfl⟩, by decide +kernel⟩

theorem witness_InitLoadsTheInitialState : ∀ alg : Alg, 0 < (idle [] 0 0 0).nCtx alg ∧ 3 < (idle [] 0 0 0).nCtx alg := by
  intro alg; cases alg <;> decide

/-- PC = 0 with an index in range, and PC = 1 with the first index out of range. -/
theorem witness_InvalidHandleCompletesWithNullContext : ∀ alg : Alg,
    ¬(false = true ∧ 0 < (idle [] 0 0 0).nCtx alg) ∧ ¬(true = true ∧ 4 < (idle [] 0 0 0).nCtx alg) := by
  intro alg; cases alg <;> decide

/-- A SHA-256 slot whose counter is just full after the two bytes that end buffer memory. -/
theorem witness_UpdateAppendsTheDataBytes :
    let c : Context .sha256 := { Context.init .sha256 with bitCount := 0xFFFFFFFFFFFFFFE8 }
    let s := machine [] 0xFFFE 0 2 c (Context.zero .sha512)
    (s.slots .sha256)[0]? = some c ∧ c.live = true ∧ 0 < s.opLen ∧
      c.bitCount.toNat + 8 * s.opLen ≤ 2 ^ Alg.sha256.counterWidth - 1 ∧ s.opA + s.opLen ≤ s.memSize ∧ s.raced = [] := by
  decide +kernel

/-- The same for SHA-512, whose counter is far from full. -/
theorem witness_UpdateAppendsTheDataBytes_512 :
    let s := ready [] 0 0 1
    (s.slots .sha512)[0]? = some (Context.init .sha512) ∧ (Context.init .sha512).live = true ∧ 0 < s.opLen ∧
      (Context.init .sha512).bitCount.toNat + 8 * s.opLen ≤ 2 ^ Alg.sha512.counterWidth - 1 ∧ s.opA + s.opLen ≤ s.memSize ∧
      s.raced = [] := by decide +kernel

theorem witness_ZeroLengthUpdateOnlyMovesLife :
    ((ready [] 5 0 0).slots .sha256)[0]? = some (Context.init .sha256) ∧ (Context.init .sha256).live = true ∧
      (ready [] 5 0 0).opLen = 0 := by decide +kernel

theorem witness_UpdateWithoutDataLeavesTheSlot : ∀ alg : Alg, 3 < (idle [] 0 0 1).nCtx alg ∧ 0 < (idle [] 0 0 1).opLen := by
  intro alg; cases alg <;> decide

/-- An UNINIT slot, and a FINALIZED one; UPDATE with data, UPDATE of nothing, FINAL. -/
theorem witness_DeadSlotIsAContractViolation :
    let d : Context .sha256 := (Context.init .sha256).wipe
    (((idle [] 0 0 0).slots .sha512)[0]? = some (Context.zero .sha512) ∧ (Context.zero .sha512).live = false) ∧
    (((machine [] 0 0 1 d (Context.zero .sha512)).slots .sha256)[0]? = some d ∧ d.live = false) ∧
    (true = true ∨ (machine [] 0 0 1 d (Context.zero .sha512)).opLen = 0) ∧ (false = true ∨ (idle [] 0 0 0).opLen = 0) := by
  decide +kernel

/-- One byte more than the counter can count. -/
theorem witness_CounterOverflowWipesTheSlot :
    let c : Context .sha256 := { Context.init .sha256 with bitCount := 0xFFFFFFFFFFFFFFF8 }
    let s := machine [] 0 0 1 c (Context.zero .sha512)
    (s.slots .sha256)[0]? = some c ∧ c.live = true ∧ 0 < s.opLen ∧
      2 ^ Alg.sha256.counterWidth - 1 < c.bitCount.toNat + 8 * s.opLen := by decide +kernel

/-- The digest ends buffer memory. -/
theorem witness_FinalWritesTheDigestAndWipes :
    let s := ready [] 0 (0x10000 - 64) 0
    (s.slots .sha512)[0]? = some (Context.init .sha512) ∧ (Context.init .sha512).live = true ∧
      s.opB + Alg.sha512.digestSize = s.memSize ∧ s.raced = [] := by decide +kernel

theorem witness_FinalWithoutOutputWipesTheSlot : ∀ alg : Alg, 0 < (idle [] 0 0 0).nCtx alg ∧ 3 < (idle [] 0 0 0).nCtx alg := by
  intro alg; cases alg <;> decide

/-- No data operand and nothing to hash; and the most bytes SHA-256 counts, in the largest buffer memory. -/
theorem witness_OneshotWritesTheDigestOfItsInput :
    (let s := idle [] 0 0 0
     (false = true ∨ s.opLen = 0) ∧ 8 * s.opLen ≤ 2 ^ Alg.sha512.counterWidth - 1 ∧ (s.opLen = 0 ∨ s.opA + s.opLen ≤ s.memSize) ∧
       s.opB + Alg.sha512.digestSize ≤ s.memSize ∧ s.raced = []) ∧
    let s := { idle [] (2 ^ 64 - 2 ^ 61 + 1) (2 ^ 64 - 32) (2 ^ 61 - 1) with memSize := 2 ^ 64 }
    (true = true ∨ s.opLen = 0) ∧ 8 * s.opLen ≤ 2 ^ Alg.sha256.counterWidth - 1 ∧ s.opA + s.opLen = s.memSize ∧
      s.opB + Alg.sha256.digestSize = s.memSize ∧ s.raced = [] := by decide +kernel

/-- The three clauses, at the first byte count each holds for. -/
theorem witness_OneshotErrorsLeaveNothingBehind :
    0 < (idle [] 0 0 1).opLen ∧ 2 ^ 61 = (idle [] 0 0 (2 ^ 61)).opLen ∧
    ((idle [] 0 0 0).opLen = 0 ∧ 8 * (idle [] 0 0 0).opLen ≤ 2 ^ Alg.sha256.counterWidth - 1) ∧
    (8 * (idle [] 0xFFFF 0 1).opLen ≤ 2 ^ Alg.sha512.counterWidth - 1 ∧
      (idle [] 0xFFFF 0 1).opA + (idle [] 0xFFFF 0 1).opLen = (idle [] 0xFFFF 0 1).memSize) := by decide +kernel

/-- The clauses, each range one byte too far; ONESHOT's data range with no output operand, its output range with no data operand. -/
theorem witness_RangeOutsideMemoryIsABusError :
    (let s := ready [] 0xFFFF 0 2
     (s.slots .sha256)[0]? = some (Context.init .sha256) ∧ (Context.init .sha256).live = true ∧ 0 < s.opLen ∧
       (Context.init .sha256).bitCount.toNat + 8 * s.opLen ≤ 2 ^ Alg.sha256.counterWidth - 1 ∧ s.memSize < s.opA + s.opLen) ∧
    (let s := ready [] 0 (0x10000 - 31) 0
     (s.slots .sha256)[0]? = some (Context.init .sha256) ∧ (Context.init .sha256).live = true ∧
       s.memSize < s.opB + Alg.sha256.digestSize) ∧
    (let s := idle [] 0xFFFF 0 2
     (true = true ∨ s.opLen = 0) ∧ 8 * s.opLen ≤ 2 ^ Alg.sha256.counterWidth - 1 ∧ (0 < s.opLen ∧ s.memSize < s.opA + s.opLen)) ∧
    (let s := idle [] 0 (0x10000 - 63) 0
     (false = true ∨ s.opLen = 0) ∧ 8 * s.opLen ≤ 2 ^ Alg.sha512.counterWidth - 1 ∧
       (true = true ∧ s.memSize < s.opB + Alg.sha512.digestSize)) ∧
    (let s := idle [] (0x10000 - 63) (0x10000 - 127) 0
     s.memSize < s.opA + Alg.sha512.digestSize ∧ s.memSize < s.opB + 2 * Alg.sha512.digestSize) ∧
    (let s := idle [] (0x10000 - 31) (0x10000 - 31) 0
     s.memSize < s.opA + Alg.sha256.digestSize ∧ s.memSize < s.opB + Alg.sha256.digestSize) := by decide +kernel

/-- Both ranges end buffer memory, and overlap. -/
theorem witness_TohexWritesTheCharacters :
    let s := idle [] (0x10000 - 64) (0x10000 - 128) 0
    s.opA + Alg.sha512.digestSize = s.memSize ∧ s.opB + 2 * Alg.sha512.digestSize = s.memSize ∧ s.raced = [] := by decide +kernel

theorem witness_CtcmpSetsEqToEquality :
    let s := idle [] (0x10000 - 32) 0 0
    s.opA + Alg.sha256.digestSize = s.memSize ∧ s.opB + Alg.sha256.digestSize ≤ s.memSize ∧ s.raced = [] := by decide +kernel

theorem witness_AbsentInputCompletesWithNullInput : ¬(false = true ∧ true = true) ∧ ¬(true = true ∧ false = true) := by decide

/-- Each instruction completes with OK from one of these states. -/
theorem witness_CommandsAccessExactlyTheirRanges :
    (after (.init256 0 true) (idle [] 0 0 0)).map (·.err) = some 0 ∧ (after (.init512 0 true) (idle [] 0 0 0)).map (·.err) = some 0 ∧
    (after (.update256 0 true true) (ready [] 0 0 1)).map (·.err) = some 0 ∧
    (after (.update512 0 false true) (ready [] 0 0 0)).map (·.err) = some 0 ∧
    (after (.final256 0 true true) (ready [] 0 0 0)).map (·.err) = some 0 ∧
    (after (.final512 0 true true) (ready [] 0 0 0)).map (·.err) = some 0 ∧
    (after (.oneshot256 true true) (idle [] 0 0 1)).map (·.err) = some 0 ∧
    (after (.oneshot512 false true) (idle [] 0 0 0)).map (·.err) = some 0 ∧
    (after (.tohex256 true true) (idle [] 0 0 0)).map (·.err) = some 0 ∧
    (after (.tohex512 true true) (idle [] 0 0 0)).map (·.err) = some 0 ∧
    (after (.ctcmp256 true true) (idle [] 0 0 0)).map (·.err) = some 0 ∧
    (after (.ctcmp512 true true) (idle [] 0 0 0)).map (·.err) = some 0 := by decide +kernel

theorem witness_AccumulatorIsZeroExactlyOnEqualBytes : ([0x01, 0x80] : List Byte).length = ([0x01, 0x00] : List Byte).length := by
  decide

/-- The last byte of two; the digit values 9 and 10, where the character ranges meet. -/
theorem witness_HexRendersHighNibbleFirst : 1 < ([0x9a, 0xff] : List Byte).length ∧ (9 : BitVec 4).toNat < 10 ∧
    10 ≤ (10 : BitVec 4).toNat := by decide

theorem witness_RotationMovesEveryBit : (0 < 1 ∧ 1 < 32 ∧ 31 < 32) ∧ (0 < 63 ∧ 63 < 64 ∧ 0 < 64) := by decide

theorem witness_BigEndianBytesAndWordsAgree : (fill 0 4 7).length = Alg.sha256.w / 8 ∧ (fill 0 8 7).length = Alg.sha512.w / 8 := by
  decide

/-- A block of each size; the first and the last word of the block, and of the recurrence. -/
theorem witness_ScheduleFollowsTheRecurrence : ∀ alg : Alg, (List.replicate alg.blockSize (0 : Byte)).length = alg.blockSize ∧
    15 < 16 ∧ 16 < alg.rounds ∧ (16 ≤ alg.rounds - 1 ∧ alg.rounds - 1 < alg.rounds) := by intro alg; cases alg <;> decide

theorem witness_CounterCheckIsTheByteBound : 0 % 8 = 0 ∧ (2 ^ 64 - 8) % 8 = 0 := by decide

/-- The lengths on both sides of the boundary, 55 and 56 for SHA-256, 111 and 112 for SHA-512, and the largest. -/
theorem witness_PaddingEndsAtABlockBoundary : ∀ alg : Alg,
    alg.blockSize - alg.lengthSize - 1 < alg.blockSize - alg.lengthSize ∧ alg.blockSize - alg.lengthSize < alg.blockSize ∧
      alg.blockSize - 1 < alg.blockSize ∧ alg.blockSize - alg.lengthSize ≤ alg.blockSize - 1 := by intro alg; cases alg <;> decide

/-- With one zero byte of fill or more, the first and last place of the fill. -/
theorem witness_PaddingEndsInTheBitCount : 54 < Alg.sha256.blockSize ∧ 1 + Alg.sha256.lengthSize < (pad .sha256 54 0).length ∧
    127 < Alg.sha512.blockSize := by decide

theorem witness_CommandChangesAtMostItsSlot : (after (.ctcmp256 false true) (idle [] 0 0 0)).isSome = true ∧
    (after (.init256 15 true) (idle [] 0 0 0)).map (·.err) = some StatusCode.nullContext.code ∧
    Instr.namedSlot (.init256 0 true) ≠ some (.sha512, 0) ∧ Instr.namedSlot (.init256 0 true) ≠ some (.sha256, 1) := by
  decide +kernel

/-- Two states that differ in another slot, a scratch context, EQ, STATUS, the host's latest load and the index of their free values,
where nothing is raced; and one in which a byte is. -/
theorem witness_CommandDependsOnlyOnItsInputs :
    let s := ready abc 0x100 0 3
    let s' := { s with
      slots512 := [Context.zero .sha512, Context.init .sha512, Context.zero .sha512, Context.zero .sha512]
      scratch256 := Context.init .sha256, eq := true, err := 4, fault := true, fcause := 9, hostRead := .byte 1, draws := 7 }
    let r := { s with raced := [0x101] }
    let r' := { r with eq := true, coins := 3 }
    s ≠ s' ∧ (after (.update256 0 true true) s).isSome = true ∧ (after (.update256 0 true true) s').isSome = true ∧
      s.current = s'.current ∧ s.mem = s'.mem ∧ s.memSize = s'.memSize ∧ s.raced = s'.raced ∧
      s.draws ≠ s'.draws ∧ (s.nCtx .sha256 = s'.nCtx .sha256 ∧ s.nCtx .sha512 = s'.nCtx .sha512) ∧
      (s.slots .sha256)[0]? = (s'.slots .sha256)[0]? ∧ s.raced = [] ∧
      (after (.update256 0 true true) r).isSome = true ∧ (after (.update256 0 true true) r').isSome = true ∧ r ≠ r' ∧
      r.raced = r'.raced ∧ r.raced ≠ [] ∧ r.draws = r'.draws := by decide +kernel

/-- The input and the output both end buffer memory. -/
theorem witness_OneshotIsInitUpdateFinal :
    let s := idle [] 0xFFFF (0x10000 - 64) 1
    3 < s.nCtx .sha512 ∧ s.inRange s.argA.toNat s.argLen.toNat = true ∧ counterFits .sha512 0 s.argLen.toNat = true ∧
      s.inRange s.argB.toNat Alg.sha512.digestSize = true := by decide +kernel

/-- One byte and then none; the largest buffer memory there is. -/
theorem witness_TwoUpdatesAreOneUpdate :
    let s := { ready [] 0 0 0 with memSize := 2 ^ 64 }
    (s.slots .sha256)[0]? = some (Context.init .sha256) ∧ (Context.init .sha256).live = true ∧ s.memSize ≤ 2 ^ 64 ∧
      (1 : DWord).toNat + (0 : DWord).toNat < 2 ^ 64 ∧
      s.inRange (0xFFFFFFFFFFFFFFFF : DWord).toNat ((1 : DWord).toNat + (0 : DWord).toNat) = true ∧
      counterFits .sha256 (Context.init .sha256).bitCount.toNat ((1 : DWord).toNat + (0 : DWord).toNat) = true := by
  decide +kernel

/-- INIT makes an UNINIT slot READY; UPDATE makes a READY slot ACCUM. -/
theorem witness_CommandsFollowTheLifecycle :
    ((after (.init256 0 true) (idle [] 0 0 0)).map fun t => (t.slots256.map (·.life))) = some [.ready, .uninit, .uninit, .uninit] ∧
    ((after (.update256 0 false true) (ready [] 0 0 0)).map fun t => (t.slots256.map (·.life))) =
      some [.accum, .uninit, .uninit, .uninit] := by decide +kernel

theorem witness_CmdStoreStartsACommand :
    let s := { idle [] 0 0 0 with regBase := 0x1000, schedule := [.host (.storeReg .word 0x1000 0x4000)] }
    s.schedule = .host (.storeReg .word s.regBase 0x4000) :: [] ∧ s.pend = none := by decide

/-- The first and the last of the argument registers; a load of CMD while idle, and of RESULT while a command is pending. -/
theorem witness_ArgumentStoreReadsBack :
    let s := fun off => { idle [] 0 0 0 with schedule := [.host (.storeReg .word off 7)] }
    (regAt 0x08 = some .argALo ∧ RegName.argALo ∉ [RegName.cmd, .status, .result] ∧
      (s 0x08).schedule = [.host (.storeReg .word ((s 0x08).regBase + 0x08) 7)] ∧ (s 0x08).pend = none) ∧
    (regAt 0x1C = some .lenHi ∧ RegName.lenHi ∉ [RegName.cmd, .status, .result] ∧
      (s 0x1C).schedule = [.host (.storeReg .word ((s 0x1C).regBase + 0x1C) 7)] ∧ (s 0x1C).pend = none) ∧
    (let l := { idle [] 0 0 0 with schedule := [.host (.loadReg .word 0x00)] }
     l.schedule = .host (.loadReg .word (l.regBase + 0x00)) :: [] ∧ (0x00, l.cmd) ∈ [(0x00, l.cmd)]) ∧
    (let l := { (idle [] 0 0 0).accept 0x4000 with schedule := [.host (.loadReg .word 0x20)] }
     l.schedule = .host (.loadReg .word (l.regBase + 0x20)) :: [] ∧ l.busy = true ∧ (0x20, l.resultWord) ∈ [(0x20, l.resultWord)]) := by
  decide

/-- CMD, LEN_HI, STATUS, the first and the last reserved offset, while `INIT.256 c0` is pending. -/
theorem witness_StoreWhileBusyIsABusyWrite : ∀ off ∈ [0x00, 0x1C, 0x04, 0x24, 0xFC],
    let s := { (idle [] 0 0 0).accept 0x4000 with schedule := [.host (.storeReg .word off 7)] }
    s.pend = some ((idle [] 0 0 0).latch 0x4000) ∧ off < 0x100 ∧ off % 4 = 0 ∧
      s.schedule = .host (.storeReg .word (s.regBase + off) 7) :: [] := by decide

/-- A byte access to CMD, a word access at offset 1, and aligned words at the first and the last reserved offset. -/
theorem witness_UndefinedWindowAccessesAreIgnored :
    (AccessWidth.byte ≠ .word ∧ 0x00 < 0x100) ∧ (1 % 4 ≠ 0 ∧ 1 < 0x100) ∧ (0x24 ≤ 0x24 ∧ 0x24 < 0x100) ∧
      (0x24 ≤ 0xFC ∧ 0xFC < 0x100) ∧
    { idle [] 0 0 0 with schedule := [.host (.storeReg .word 0x24 7)] }.schedule =
      .host (.storeReg .word ((idle [] 0 0 0).regBase + 0x24) 7) :: [] := by decide

/-- A faulted state that steps without a reset; a command that faults. -/
theorem witness_FaultStaysSetUntilReset :
    (let s := { (idle [] 0 0 0).withFetchWord 32 0x4000 with fault := true, fcause := 9 }
     (stepped s).isSome = true ∧ s.schedule.head? ≠ some .reset ∧ s.fault = true) ∧
    (after (.final256 0 true true) (idle [] 0 0 0)).map (·.err) = some 7 := by decide +kernel

/-- The invariant of a machine in the middle of things: an illegal word pending, a slot in use, a fault already recorded or not. -/
theorem busy_inv (f : Bool) (sch : List Turn) :
    State.Inv { (ready abc 1 2 3).accept 6 with fault := f, fcause := bif f then 9 else 0, schedule := sch } where
  memory_wf := by show Memory.wf abc; decide
  memory_inside := by show ∀ x ∈ abc, x.1 < 0x10000; decide
  parameters := by show Params.wf ⟨4, 4, 0x10000, 0⟩; decide
  err_code := by show (0 : BitVec 4).toNat ≤ 9; decide
  cause := by cases f <;> simp
  latched := by intro p hp; cases hp; rfl
  idle_unraced := fun h => by cases h
  raced_wf := ⟨List.nodup_nil, fun a ha => by cases ha⟩
  datapaths_clear := fun alg => by cases alg <;> rfl
  scratch_dead := fun alg => by cases alg <;> exact ⟨rfl, ⟨(fun h => by cases h), fun _ => rfl⟩⟩
  slots_inv := by
    have z : ∀ a, (Context.zero a).Inv := fun a => ⟨(fun h => by cases h), fun _ => rfl⟩
    have i : ∀ a, (Context.init a).Inv := fun a => ⟨(fun _ => ⟨by simp [Context.init], by simp [Context.init]⟩), fun h => by cases h⟩
    intro alg c hc
    cases alg
    · rcases List.mem_cons.1 hc with rfl | hc
      · exact i _
      · rw [List.eq_of_mem_replicate (n := 3) hc]; exact z _
    · rcases List.mem_cons.1 hc with rfl | hc
      · exact i _
      · rw [List.eq_of_mem_replicate (n := 3) hc]; exact z _

/-- With a fault recorded; without one, but the step records one, a command's or a BusyWrite; and without one before or after. -/
theorem witness_FcauseKeepsTheFirstFault :
    let s := fun (f : Bool) (sch : List Turn) =>
      { (ready abc 1 2 3).accept 6 with fault := f, fcause := bif f then 9 else 0, schedule := sch }
    (∀ f sch, (s f sch).Inv) ∧ (stepped (s true [])).map (·.fault) = some true ∧
      (stepped (s false [])).map (·.fcause) = some 6 ∧
      (stepped (s false [.host (.storeReg .word 0x08 0)])).map (·.fcause) = some 9 ∧
      (stepped (s false [.host .poll])).map (·.fault) = some false :=
  ⟨busy_inv, by decide +kernel⟩

theorem witness_CleanRunNeverFaulted :
    let s := (idle [] 0 0 0).withFetchWord 32 0x4000
    (∃ t, CleanRun 1 s t) ∧ Turn.reset ∉ s.schedule :=
  ⟨⟨_, .more rfl (.done _), rfl⟩, by decide⟩

/-- A load of STATUS; and of a byte that a pending FINAL is not about to write. -/
theorem witness_HostLoadsDoNotSeeTheSlots :
    (∃ t, hostTurn (.loadReg .word 4) (idle [] 0 0 0) = .next t) ∧
    ((ready [] 0 0x200 0).accept 0x6002).inPendingOutput 0x1FF = false ∧
    ((ready [] 0 0x200 0).accept 0x6002).inPendingOutput 0x220 = false ∧
    ∃ t, hostTurn (.loadByte 0x1FF) ((ready [] 0 0x200 0).accept 0x6002) = .next t :=
  ⟨⟨_, rfl⟩, by decide +kernel, by decide +kernel, ⟨_, rfl⟩⟩

/-- `UPDATE.256 c0, [0x100], 3` as a line. -/
theorem witness_AssemblerLineRunsItsCommand :
    let line := AsmLine.update .sha256 (some 0) (some 0x100) 3
    let s := { idle abc 0 0 0 with schedule := line.expand 0 }
    s.pend = none ∧ s.schedule = line.expand s.regBase ∧ s.schedule.length = 6 := by decide

/-- A pending UPDATE and a pending CTCMP, whose input the host has written to. -/
theorem witness_RacedInputIsTakenAsSomeBytes :
    (let s := { (ready abc 0x100 0 3).accept 0x5001 with raced := [0x102] }
     (s.slots .sha256)[0]? = some (Context.init .sha256) ∧ (Context.init .sha256).live = true ∧ 0 < s.opLen ∧
       (Context.init .sha256).bitCount.toNat + 8 * s.opLen ≤ 2 ^ Alg.sha256.counterWidth - 1 ∧ s.opA + s.opLen ≤ s.memSize) ∧
    (let s := { (idle [] 0xFFE0 0x10 0).accept 0x3005 with raced := [0x10] }
     s.opA + Alg.sha256.digestSize = s.memSize ∧ s.opB + Alg.sha256.digestSize ≤ s.memSize) := by decide +kernel

/-- A pending FINAL, ONESHOT and TOHEX, whose output the host has written to. -/
theorem witness_RacedOutputEndsAsEitherValue :
    (let s := { (ready [] 0 0xFFE0 0).accept 0x6002 with raced := [0xFFFF] }
     (s.slots .sha256)[0]? = some (Context.init .sha256) ∧ (Context.init .sha256).live = true ∧
       s.opB + Alg.sha256.digestSize = s.memSize) ∧
    (let s := { (idle abc 0x100 0xFFE0 3).accept 0x3003 with raced := [0xFFE0] }
     8 * s.opLen ≤ 2 ^ Alg.sha256.counterWidth - 1 ∧ s.opA + s.opLen ≤ s.memSize ∧ s.opB + Alg.sha256.digestSize = s.memSize) ∧
    (let s := { (idle [] 0xFFC0 0xFF80 0).accept 0x3014 with raced := [0xFFFF] }
     s.opA + Alg.sha512.digestSize = s.memSize ∧ s.opB + 2 * Alg.sha512.digestSize = s.memSize) := by decide +kernel

/-- The state a step leads to, where it leads to one. -/
def following (s : State) : State := (stepped s).getD s

theorem step_following {s : State} (h : (stepped s).isSome = true) : step s = .next (following s) := by
  unfold following; unfold stepped at *
  generalize step s = o at *
  cases o with
  | next t => rfl
  | fault f => cases h
  | refused r => cases h

/-- A pending FINAL's first and last output byte, and the bytes beside them; after the load the FINAL is over, by the core's turn or by
a reset, with a host store to the very byte loaded, and a BusyWrite, on the way. -/
theorem witness_RacedLoadReturnsOldOrFinalByte : ∀ last : List Turn, last = [] ∨ last = [.reset] →
    let s := fun a => { (ready [] 0 0x200 0).accept 0x6002 with
      schedule := .host (.loadByte a) :: .host (.storeByte a 7) :: .host (.storeReg .word 0x08 1) :: last }
    ((s 0x200).schedule.head? = some (.host (.loadByte 0x200)) ∧ 0x200 < (s 0x200).memSize ∧
      ((s 0x1FF).inPendingOutput 0x1FF = false ∧ (s 0x220).inPendingOutput 0x220 = false) ∧
      ((s 0x200).inPendingOutput 0x200 = true ∧ (s 0x21F).inPendingOutput 0x21F = true)) ∧
    ∃ t u, step (s 0x21F) = .next t ∧ CommandOver t u := by
  intro last h s
  have w : ∀ s : State, (stepped s).isSome = true → (stepped (following s)).isSome = true →
      (stepped (following (following s))).isSome = true → (stepped (following (following (following s)))).isSome = true →
      (following s).pend ≠ none → (following (following s)).pend ≠ none → (following (following (following s))).pend ≠ none →
      (following (following (following (following s)))).pend = none → ∃ t u, step s = .next t ∧ CommandOver t u :=
    fun s h0 h1 h2 h3 p1 p2 p3 p4 => ⟨following s, following (following (following (following s))), step_following h0,
      .later p1 (step_following h1) p2 (.later p2 (step_following h2) p3 (.now p3 (step_following h3) p4))⟩
  rcases h with rfl | rfl <;> refine ⟨by decide +kernel, ?_⟩ <;> apply w <;> decide +kernel

theorem witness_ResetClearsAllButMemory :
    let s := { ready abc 1 2 3 with schedule := [.reset, .core] }
    s.schedule = .reset :: [.core] ∧ s.pend = none := by decide

/-- A pending FINAL is abandoned: the bytes on both sides of its output range; and one whose output range runs out of buffer memory,
of which R253 frees the 16 bytes that exist. -/
theorem witness_AbandonedCommandTouchesOnlyItsOutputRange :
    let s := { (ready [] 0 0x200 0).accept 0x6002 with schedule := [.reset] }
    s.schedule = .reset :: [] ∧ s.pendingOutput = some (0x200, 32) ∧ ¬(0x200 ≤ 0x1FF ∧ 0x1FF < 0x200 + 32) ∧
      ¬(0x200 ≤ 0x220 ∧ 0x220 < 0x200 + 32) ∧
    ((ready [] 0 0xFFF0 0).accept 0x6002).pendingOutput = some (0xFFF0, 16) := by decide +kernel

/-- The last byte of buffer memory, and the first address past it; with nothing pending, and while a command is pending. -/
theorem witness_HostByteStoreThenLoad : ∀ a ∈ [0xFFFF, 0x10000],
    let s := { idle [] 0 0 0 with schedule := [.host (.storeByte a 1), .host (.loadByte a)] }
    let b := { (idle [] 0 0 0).accept 0x4000 with schedule := [.host (.storeByte a 1)] }
    (s.schedule = .host (.storeByte a 1) :: .host (.loadByte a) :: [] ∧ s.pend = none) ∧
      (b.schedule = .host (.storeByte a 1) :: [] ∧ b.pend ≠ none) ∧ (a < s.memSize ∨ s.memSize ≤ a) := by decide

/-- The smallest and the largest parameters there are. -/
theorem witness_ResetMeetsTheInvariant : Params.wf ⟨1, 1, 1, 0⟩ ∧ Params.wf ⟨16, 16, 2 ^ 64, 0⟩ := by decide

theorem witness_StepKeepsTheInvariant :
    let s := { (ready abc 1 2 3).accept 6 with fault := false, fcause := bif false then 9 else 0, schedule := [] }
    s.Inv ∧ (stepped s).isSome = true :=
  ⟨busy_inv false [], by decide +kernel⟩

end Sys2Proof.Tests
end

section
/-! SUPPORT. What one step can do to the fault record, STATUS.FAULT and STATUS.FCAUSE (spec/10_state.md R24, R25;
spec/60_exceptions.md R222 to R224), said once for every command and every host action; then the register window's undefined
accesses (R21, R31). -/

namespace Sys2Proof.Machine

/-! ## How a command ends -/

/-- The fault codes a command can end with (R223). The fourth fault, BusyWrite, ends no command (R224). -/
def commandFaults : List StatusCode := [.illegalCommand, .contractViolation, .busError]

/-- A command ended, in `t`: with a code up to 5 and the fault record untouched (R222), or with a fault that is recorded (R223). -/
def CommandEnds (s t : State) : Prop :=
  ∃ code, Ended t code ∧
    ((code.code.toNat ≤ 5 ∧ SameFaultRecord s t) ∨ (code ∈ commandFaults ∧ FaultRecorded s t code))

theorem CommandEnds.of_complete {s u : State} {code : StatusCode} (same : SameFaultRecord s u) (h : code.code.toNat ≤ 5) :
    CommandEnds s (u.complete code) :=
  ⟨code, ⟨rfl, rfl⟩, .inl ⟨h, same⟩⟩

theorem CommandEnds.of_raiseFault {s u : State} {code : StatusCode} (same : SameFaultRecord s u) (h : code ∈ commandFaults) :
    CommandEnds s (u.raiseFault code) := by
  obtain ⟨hfault, hfcause⟩ := same
  exact ⟨code, ⟨rfl, rfl⟩, .inr ⟨h, rfl, by rw [State.raiseFault_fcause, hfault, hfcause]⟩⟩

theorem initCommand_ends (alg : Alg) (ctx : Nat) (pc : Bool) (s : State) : CommandEnds s (initCommand alg ctx pc s) := by
  obtain ⟨-, e⟩ | ⟨-, -, e⟩ := initCommand_cases alg ctx pc s <;> rw [e]
  · exact .of_complete ⟨rfl, rfl⟩ (by decide)
  · exact .of_complete ⟨by simp, by simp⟩ (by decide)

theorem updateCommand_ends (alg : Alg) (ctx : Nat) (pa pc : Bool) (s : State) :
    CommandEnds s (updateCommand alg ctx pa pc s) := by
  obtain ⟨-, e⟩ | ⟨c, -, -, ⟨-, -, e⟩ | ⟨-, -, e⟩ | ⟨-, -, e⟩ | ⟨-, -, -, -, e⟩ | ⟨-, -, -, -, -, e⟩ | ⟨-, -, -, -, -, e⟩⟩ :=
    updateCommand_cases alg ctx pa pc s <;> rw [e]
  · exact .of_complete ⟨rfl, rfl⟩ (by decide)
  · exact .of_complete ⟨rfl, rfl⟩ (by decide)
  · exact .of_raiseFault ⟨rfl, rfl⟩ (by decide)
  · exact .of_complete ⟨by simp, by simp⟩ (by decide)
  · exact .of_complete ⟨by simp, by simp⟩ (by decide)
  · exact .of_raiseFault ⟨rfl, rfl⟩ (by decide)
  · exact .of_complete ⟨by simp, by simp⟩ (by decide)

theorem finalCommand_ends (alg : Alg) (ctx : Nat) (pb pc : Bool) (s : State) :
    CommandEnds s (finalCommand alg ctx pb pc s) := by
  obtain ⟨-, e⟩ | ⟨c, -, -, ⟨-, e⟩ | ⟨-, -, e⟩ | ⟨-, -, -, e⟩ | ⟨-, -, -, e⟩⟩ :=
    finalCommand_cases alg ctx pb pc s <;> rw [e]
  · exact .of_complete ⟨rfl, rfl⟩ (by decide)
  · exact .of_complete ⟨by simp, by simp⟩ (by decide)
  · exact .of_raiseFault ⟨rfl, rfl⟩ (by decide)
  · exact .of_raiseFault ⟨rfl, rfl⟩ (by decide)
  · exact .of_complete ⟨by simp, by simp⟩ (by decide)

theorem oneshotBegin_sameFaultRecord (alg : Alg) (s : State) : SameFaultRecord s (oneshotBegin alg s) :=
  ⟨by simp [oneshotBegin], by simp [oneshotBegin]⟩

theorem oneshotAbsorb_sameFaultRecord (alg : Alg) (s : State) : SameFaultRecord s (oneshotAbsorb alg s) := by
  unfold oneshotAbsorb
  split
  · exact ⟨by simp, by simp⟩
  · exact ⟨by simp, by simp⟩

theorem oneshotCommand_ends (alg : Alg) (pa pb : Bool) (s : State) : CommandEnds s (oneshotCommand alg pa pb s) := by
  obtain ⟨hfault, hfcause⟩ := oneshotBegin_sameFaultRecord alg s
  obtain ⟨hfault', hfcause'⟩ := oneshotAbsorb_sameFaultRecord alg (oneshotBegin alg s)
  obtain ⟨-, -, e⟩ | ⟨-, -, e⟩ | ⟨-, -, -, e⟩ | ⟨-, -, -, -, e⟩ | ⟨-, -, -, -, -, e⟩ :=
    oneshotCommand_cases alg pa pb s <;> rw [e]
  · exact .of_complete ⟨by simp [hfault], by simp [hfcause]⟩ (by decide)
  · exact .of_complete ⟨by simp [hfault], by simp [hfcause]⟩ (by decide)
  · exact .of_raiseFault ⟨by simp [hfault], by simp [hfcause]⟩ (by decide)
  · exact .of_complete ⟨by simp [hfault, hfault'], by simp [hfcause, hfcause']⟩ (by decide)
  · exact .of_complete ⟨by simp [hfault, hfault'], by simp [hfcause, hfcause']⟩ (by decide)

theorem tohexCommand_ends (alg : Alg) (pa pb : Bool) (s : State) : CommandEnds s (tohexCommand alg pa pb s) := by
  obtain ⟨-, e⟩ | ⟨-, -, -, e⟩ | ⟨-, -, -, -, e⟩ := tohexCommand_cases alg pa pb s <;> rw [e]
  · exact .of_complete ⟨rfl, rfl⟩ (by decide)
  · exact .of_raiseFault ⟨rfl, rfl⟩ (by decide)
  · exact .of_complete ⟨rfl, rfl⟩ (by decide)

theorem ctcmpCommand_ends (alg : Alg) (pa pb : Bool) (s : State) : CommandEnds s (ctcmpCommand alg pa pb s) := by
  obtain ⟨-, e⟩ | ⟨-, -, -, e⟩ | ⟨-, -, -, -, e⟩ := ctcmpCommand_cases alg pa pb s <;> rw [e]
  · exact .of_complete ⟨rfl, rfl⟩ (by decide)
  · exact .of_raiseFault ⟨rfl, rfl⟩ (by decide)
  · exact .of_complete ⟨rfl, rfl⟩ (by decide)

/-- Every instruction is a command that ends. -/
theorem exec_ends (i : Instr) (s : State) : ∃ t, exec i s = .next t ∧ CommandEnds s t := by
  induction i using Instr.byOperation with
  | init alg ctx pc => exact ⟨_, exec_init .., initCommand_ends ..⟩
  | update alg ctx pa pc => exact ⟨_, exec_update .., updateCommand_ends ..⟩
  | final alg ctx pb pc => exact ⟨_, exec_final .., finalCommand_ends ..⟩
  | oneshot alg pa pb => exact ⟨_, exec_oneshot .., oneshotCommand_ends ..⟩
  | tohex alg pa pb => exact ⟨_, exec_tohex .., tohexCommand_ends ..⟩
  | ctcmp alg pa pb => exact ⟨_, exec_ctcmp .., ctcmpCommand_ends ..⟩

/-- The core's turn: nothing to do, or the pending command ends, an illegal word's too (R81). -/
theorem coreTurn_ends (s : State) :
    (s.pend = none ∧ coreTurn s = .next s) ∨ (s.pend ≠ none ∧ ∃ t, coreTurn s = .next t ∧ CommandEnds s t) := by
  unfold coreTurn
  cases s.pend with
  | none => exact .inl ⟨rfl, rfl⟩
  | some p =>
    refine .inr ⟨Option.some_ne_none p, ?_⟩
    dsimp only
    cases decode p.word with
    | ok i => exact exec_ends i s
    | error e => exact ⟨_, rfl, .of_raiseFault ⟨rfl, rfl⟩ (by decide)⟩

/-! ## The register window -/

theorem State.busy_eq_true {s : State} : s.busy = true ↔ s.pend ≠ none := by
  rw [State.busy, Option.isSome_iff_ne_none]

theorem State.windowOffset_add {off : Nat} (h : off < 0x100) (s : State) : s.windowOffset (s.regBase + off) = some off := by
  rw [State.windowOffset, if_pos (by omega), Nat.add_sub_cancel_left]

/-- What a store to the window can do: nothing, a BusyWrite fault, or, while BUSY = 0, the register's own effect (R21, R31, R224). -/
theorem State.windowWrite_cases (s : State) (width : AccessWidth) (off : Nat) (v : Word) :
    s.windowWrite width off v = s ∨
    (s.busy = true ∧ s.windowWrite width off v = s.recordFault .busyWrite) ∨
    (s.busy = false ∧ ∃ r, s.windowWrite width off v = s.writeRegIdle v r) := by
  unfold State.windowWrite
  split
  · cases regAt off with
    | none => exact .inl rfl
    | some r =>
      simp only [State.writeReg]
      cases hb : s.busy with
      | false => exact .inr (.inr ⟨rfl, r, rfl⟩)
      | true =>
        cases r.guarded with
        | false => exact .inl rfl
        | true => exact .inr (.inl ⟨rfl, rfl⟩)
  · exact .inl rfl

theorem State.writeRegIdle_sameFaultRecord (s : State) (v : Word) (r : RegName) : SameFaultRecord s (s.writeRegIdle v r) := by
  cases r <;> exact ⟨rfl, rfl⟩

/-! ## One step and the fault record -/

/-- What a turn that is no reset can do to the fault record: nothing; a command ends with a fault; or a BusyWrite is recorded, with
the command still pending. -/
def FaultStep (s t : State) : Prop :=
  SameFaultRecord s t ∨
  (∃ code ∈ commandFaults, Ended t code ∧ FaultRecorded s t code) ∨
  (t.pend = s.pend ∧ t.pend ≠ none ∧ FaultRecorded s t .busyWrite)

/-- The schedule is no part of the fault record. -/
theorem FaultStep.of_schedule {s t : State} {rest : List Turn} (h : FaultStep { s with schedule := rest } t) : FaultStep s t := h

theorem CommandEnds.faultStep {s t : State} (h : CommandEnds s t) : FaultStep s t := by
  obtain ⟨code, hend, ⟨-, same⟩ | ⟨hcode, recorded⟩⟩ := h
  · exact .inl same
  · exact .inr (.inl ⟨code, hcode, hend, recorded⟩)

theorem coreTurn_faultStep {s t : State} (h : coreTurn s = .next t) : FaultStep s t := by
  obtain ⟨-, e⟩ | ⟨-, t', e, ends⟩ := coreTurn_ends s <;> cases e.symm.trans h
  · exact .inl ⟨rfl, rfl⟩
  · exact ends.faultStep

theorem State.windowWrite_faultStep (s : State) (width : AccessWidth) (off : Nat) (v : Word) :
    FaultStep s (s.windowWrite width off v) := by
  obtain e | ⟨hb, e⟩ | ⟨-, r, e⟩ := s.windowWrite_cases width off v <;> rw [e]
  · exact .inl ⟨rfl, rfl⟩
  · exact .inr (.inr ⟨rfl, State.busy_eq_true.1 hb, rfl, rfl⟩)
  · exact .inl (s.writeRegIdle_sameFaultRecord v r)

theorem State.hostLoadByte_sameFaultRecord (s : State) (a : Nat) : SameFaultRecord s (s.hostLoadByte a) := by
  unfold State.hostLoadByte
  split <;> exact ⟨rfl, rfl⟩

theorem hostTurn_faultStep {act : HostAction} {s t : State} (h : hostTurn act s = .next t) : FaultStep s t := by
  unfold hostTurn at h
  cases act with
  | storeReg width addr v =>
    dsimp only at h
    split at h <;> cases h
    exact s.windowWrite_faultStep width _ v
  | loadReg width addr =>
    dsimp only at h
    split at h <;> cases h
    exact .inl ⟨rfl, rfl⟩
  | poll =>
    cases h
    exact .inl ⟨rfl, rfl⟩
  | storeByte a b =>
    dsimp only at h
    split at h <;> cases h
    exact .inl ⟨rfl, rfl⟩
  | loadByte a =>
    dsimp only at h
    split at h <;> cases h
    exact .inl (s.hostLoadByte_sameFaultRecord a)

theorem step_host {s : State} {act : HostAction} {rest : List Turn} (h : s.schedule = .host act :: rest) :
    step s = hostTurn act { s with schedule := rest } := by
  simp only [step, h]

theorem step_reset {s : State} {rest : List Turn} (h : s.schedule = .reset :: rest) :
    step s = .next ({ s with schedule := rest } : State).applyReset := by
  simp only [step, h]

@[simp] theorem State.applyReset_fault (s : State) : s.applyReset.fault = false := rfl

@[simp] theorem State.applyReset_fcause (s : State) : s.applyReset.fcause = 0 := rfl

/-- Every step is a reset or does to the fault record what a turn can do. -/
theorem step_faultStep {s t : State} (h : step s = .next t) :
    (∃ rest, s.schedule = .reset :: rest ∧ t = ({ s with schedule := rest } : State).applyReset) ∨
    ((∀ rest, s.schedule ≠ .reset :: rest) ∧ FaultStep s t) := by
  match hs : s.schedule with
  | [] =>
    rw [CoreNext.step_eq (.inr ⟨hs, rfl⟩)] at h
    exact .inr ⟨by simp, (coreTurn_faultStep h).of_schedule⟩
  | .core :: rest =>
    rw [CoreNext.step_eq (.inl hs)] at h
    exact .inr ⟨by simp, (coreTurn_faultStep h).of_schedule⟩
  | .host act :: rest =>
    rw [step_host hs] at h
    exact .inr ⟨by simp, (hostTurn_faultStep h).of_schedule⟩
  | .reset :: rest =>
    rw [step_reset hs] at h
    cases h
    exact .inl ⟨rest, rfl, rfl⟩

/-! ## FCAUSE (R25) -/

theorem commandFaults_code {code : StatusCode} (h : code ∈ commandFaults) : code.code = 6 ∨ code.code = 7 ∨ code.code = 8 := by
  revert h
  cases code <;> decide

theorem FaultRecorded.fcause_of_fault {s t : State} {code : StatusCode} (h : FaultRecorded s t code) (hs : s.fault = true) :
    t.fcause = s.fcause := by
  rw [h.2, hs, cond_true]

theorem FaultRecorded.fcause_of_noFault {s t : State} {code : StatusCode} (h : FaultRecorded s t code) (hs : s.fault = false) :
    t.fcause = code.code := by
  rw [h.2, hs, cond_false]

theorem State.Inv.fcause_zero {s : State} (inv : s.Inv) (h : s.fault = false) : s.fcause = 0 := by
  simpa [h] using inv.cause

theorem FaultStep.fcause_kept {s t : State} (h : FaultStep s t) (hs : s.fault = true) : t.fcause = s.fcause := by
  obtain ⟨-, e⟩ | ⟨code, -, -, recorded⟩ | ⟨-, -, recorded⟩ := h
  · exact e
  · exact recorded.fcause_of_fault hs
  · exact recorded.fcause_of_fault hs

theorem FaultStep.fcause_first {s t : State} (h : FaultStep s t) (hs : s.fault = false) (ht : t.fault = true) :
    (t.pend = none ∧ t.fcause = t.err ∧ (t.fcause = 6 ∨ t.fcause = 7 ∨ t.fcause = 8)) ∨
      (t.pend = s.pend ∧ t.pend ≠ none ∧ t.fcause = 9) := by
  obtain ⟨e, -⟩ | ⟨code, hcode, ⟨herr, hpend⟩, recorded⟩ | ⟨hpend, hbusy, recorded⟩ := h
  · rw [hs, ht] at e
    cases e
  · have e := recorded.fcause_of_noFault hs
    exact .inl ⟨hpend, e.trans herr.symm, e ▸ commandFaults_code hcode⟩
  · exact .inr ⟨hpend, hbusy, recorded.fcause_of_noFault hs⟩

theorem FaultStep.fcause_zero {s t : State} (h : FaultStep s t) (inv : s.Inv) (ht : t.fault = false) : t.fcause = 0 := by
  obtain ⟨hfault, hfcause⟩ | ⟨_, -, -, hfault, -⟩ | ⟨-, -, hfault, -⟩ := h
  · exact hfcause.trans (inv.fcause_zero (hfault.symm.trans ht))
  · cases hfault.symm.trans ht
  · cases hfault.symm.trans ht

/-- Settles O49: a reset clears FAULT and FCAUSE, and every other step is one of the cases of `FaultStep`. -/
theorem fcauseKeepsTheFirstFault : Obligations.FcauseKeepsTheFirstFault := by
  intro s t inv hstep
  obtain ⟨rest, hs, rfl⟩ | ⟨-, h⟩ := step_faultStep hstep
  · exact ⟨fun noReset => absurd hs (noReset rest), fun _ ht => by simp at ht, fun _ => by simp⟩
  · exact ⟨fun _ => h.fcause_kept, h.fcause_first, h.fcause_zero inv⟩

/-! ## Undefined accesses to the window (R21, R31) -/

/-- The register window ends with RESULT; every later offset is reserved (R20). -/
theorem regAt_reserved {off : Nat} (h : 0x24 ≤ off) : regAt off = none := by
  obtain ⟨k, rfl⟩ := Nat.exists_eq_add_of_le' h
  rfl

/-- An access that R21 and R31 leave undefined and that is an aligned word goes to a reserved offset. -/
theorem regAt_undefined {width : AccessWidth} {off : Nat} (h : width ≠ .word ∨ off % 4 ≠ 0 ∨ 0x24 ≤ off)
    (word : width = .word ∧ off % 4 = 0) : regAt off = none :=
  regAt_reserved ((h.resolve_left (not_not_intro word.1)).resolve_left (not_not_intro word.2))

theorem State.windowRead_undefined {width : AccessWidth} {off : Nat} (h : width ≠ .word ∨ off % 4 ≠ 0 ∨ 0x24 ≤ off) (s : State) :
    s.windowRead width off = 0 := by
  unfold State.windowRead
  split
  next word => rw [regAt_undefined h word]; rfl
  next => rfl

theorem State.windowWrite_undefined {width : AccessWidth} {off : Nat} (h : width ≠ .word ∨ off % 4 ≠ 0 ∨ 0x24 ≤ off) (s : State)
    (v : Word) : s.windowWrite width off v = s := by
  unfold State.windowWrite
  split
  next word => rw [regAt_undefined h word]
  next => rfl

theorem hostTurn_storeReg {off : Nat} (h : off < 0x100) (s : State) (width : AccessWidth) (v : Word) :
    hostTurn (.storeReg width (s.regBase + off) v) s = .next (s.windowWrite width off v) := by
  simp only [hostTurn, s.windowOffset_add h]

theorem hostTurn_loadReg {off : Nat} (h : off < 0x100) (s : State) (width : AccessWidth) :
    hostTurn (.loadReg width (s.regBase + off)) s = .next { s with hostRead := .reg (s.windowRead width off) } := by
  simp only [hostTurn, s.windowOffset_add h]

/-- Settles O46: the window ignores such a store and reads 0 at such a load, whatever BUSY is. -/
theorem undefinedWindowAccessesAreIgnored : Obligations.UndefinedWindowAccessesAreIgnored := by
  intro s width off v rest hoff undefined
  constructor
  · intro hs
    calc step s = _ := step_host hs
      _ = _ := hostTurn_storeReg hoff { s with schedule := rest } width v
      _ = _ := by rw [State.windowWrite_undefined undefined]
  · intro hs
    calc step s = _ := step_host hs
      _ = _ := hostTurn_loadReg hoff { s with schedule := rest } width
      _ = _ := by rw [State.windowRead_undefined undefined]

end Sys2Proof.Machine
end

section
/-! The command word (spec/30_encoding.md): which words `decode` rejects, and O5. -/

namespace Sys2Proof

/-- R76: a field that the word's operation does not use is not 0. -/
def HasUnusedField (v : Word) : Prop :=
  (fieldOp v = 0 ∧ (fieldPa v ∨ fieldPb v)) ∨ (fieldOp v = 1 ∧ fieldPb v) ∨ (fieldOp v = 2 ∧ fieldPa v) ∨
    (3 ≤ (fieldOp v).toNat ∧ (fieldCtx v ≠ 0 ∨ fieldPc v))

theorem decode_of_reservedBits {v : Word} (h : fieldReservedLow v ≠ 0 ∨ fieldReservedHigh v ≠ 0) :
    decode v = .error .reservedBits := if_pos h

/-- Whichever of R80's first three checks meets such a word, it is illegal. -/
theorem decode_of_hasUnusedField {v : Word} (h : HasUnusedField v) : ∃ e, decode v = .error e := by
  unfold decode
  split
  next => exact ⟨_, rfl⟩
  next =>
    split
    next => exact ⟨_, rfl⟩
    next => exact ⟨_, if_pos h⟩

theorem extractLsb'_ne_zero_of_getLsbD {n start len k : Nat} {v : BitVec n} (low : start ≤ k) (high : k < start + len)
    (h : v.getLsbD k = true) : v.extractLsb' start len ≠ 0 := by
  intro zero
  have bit : (v.extractLsb' start len).getLsbD (k - start) = true := by
    rw [BitVec.getLsbD_extractLsb', Nat.add_sub_cancel' low, h, decide_eq_true (by omega), Bool.and_self]
  simp [zero] at bit

/-- R75: bits [7:5] are the low reserved field and bits [31:15] the high one. -/
theorem reservedField_ne_zero {v : Word} {k : Nat} (range : 5 ≤ k ∧ k ≤ 7 ∨ 15 ≤ k ∧ k ≤ 31) (h : v.getLsbD k = true) :
    fieldReservedLow v ≠ 0 ∨ fieldReservedHigh v ≠ 0 := by
  obtain ⟨low, high⟩ | ⟨low, high⟩ := range
  · exact .inl (extractLsb'_ne_zero_of_getLsbD low (by omega) h)
  · exact .inr (extractLsb'_ne_zero_of_getLsbD low (by omega) h)

/-- ONESHOT, TOHEX and CTCMP are the legal operations from 3 on (R71). -/
theorem three_le_fieldOp {v : Word} (op : fieldOp v = 3 ∨ fieldOp v = 4 ∨ fieldOp v = 5) : 3 ≤ (fieldOp v).toNat := by
  obtain op | op | op := op <;> rw [op] <;> decide

theorem fieldCtx_ne_zero {v : Word} (h : v.extractLsb' 8 4 ≠ 0) : fieldCtx v ≠ 0 := BitVec.toNat_ne.1 h

/-- Settles O5: a reserved bit makes its field nonzero, and each of R76's rows is one case of `HasUnusedField`. -/
theorem reservedAndUnusedFieldsAreIllegal : Obligations.ReservedAndUnusedFieldsAreIllegal := by
  refine fun v => ⟨?reserved, ?init, ?update, ?final, ?noContext⟩
  case reserved => exact fun k range h => ⟨_, decode_of_reservedBits (reservedField_ne_zero range h)⟩
  case init => exact fun op h => decode_of_hasUnusedField (.inl ⟨op, h⟩)
  case update => exact fun op pb => decode_of_hasUnusedField (.inr (.inl ⟨op, pb⟩))
  case final => exact fun op pa => decode_of_hasUnusedField (.inr (.inr (.inl ⟨op, pa⟩)))
  case noContext =>
    exact fun op h => decode_of_hasUnusedField (.inr (.inr (.inr ⟨three_le_fieldOp op, h.imp_left fieldCtx_ne_zero⟩)))

end Sys2Proof
end

section
/-! The compression cores (spec/40_compression.md): the message schedule, O29, and the rounds, O30. -/

namespace Sys2Proof.Machine

/-! ## The message schedule (R112, R113, R122) -/

/-- R113's recurrence at word `j` of the words `W`. -/
def scheduleRecurrence (alg : Alg) (W : List (BitVec alg.w)) (j : Nat) : BitVec alg.w :=
  smallSigma1 alg (W.getD (j - 2) 0) + W.getD (j - 7) 0 + smallSigma0 alg (W.getD (j - 15) 0) + W.getD (j - 16) 0

theorem nextScheduleWord_eq_recurrence (alg : Alg) (W : List (BitVec alg.w)) :
    nextScheduleWord alg W = scheduleRecurrence alg W W.length := rfl

/-- The recurrence at `j` reads only words before `j`. -/
theorem scheduleRecurrence_append {alg : Alg} {W : List (BitVec alg.w)} {j : Nat} (pos : 0 < j) (h : j ≤ W.length)
    (later : List (BitVec alg.w)) : scheduleRecurrence alg (W ++ later) j = scheduleRecurrence alg W j := by
  have earlier : ∀ k, 0 < k → (W ++ later).getD (j - k) 0 = W.getD (j - k) 0 :=
    fun k hk => List.getD_append _ _ _ _ (by omega)
  simp only [scheduleRecurrence, earlier, Nat.ofNat_pos]

@[simp] theorem parseBlock_length (alg : Alg) (M : List Byte) : (parseBlock alg M).length = 16 := by
  simp [parseBlock]

theorem parseBlock_getD {j : Nat} (h : j < 16) (alg : Alg) (M : List Byte) :
    (parseBlock alg M).getD j 0 = wordOfBytes alg ((M.drop (j * (alg.w / 8))).take (alg.w / 8)) := by
  simp [parseBlock, h]

@[simp] theorem expandSchedule_length (alg : Alg) (n : Nat) (W : List (BitVec alg.w)) :
    (expandSchedule alg n W).length = W.length + n := by
  induction n generalizing W with
  | zero => rfl
  | succ n ih => simp only [expandSchedule, ih, List.length_append, List.length_singleton]; omega

/-- Expansion keeps the words there are: it only appends. -/
theorem prefix_expandSchedule (alg : Alg) (n : Nat) (W : List (BitVec alg.w)) : W <+: expandSchedule alg n W := by
  induction n generalizing W with
  | zero => exact List.prefix_rfl
  | succ n ih => exact (List.prefix_append W _).trans (ih _)

/-- Every appended word satisfies the recurrence over the finished schedule. -/
theorem expandSchedule_getD {alg : Alg} {n j : Nat} {W : List (BitVec alg.w)} (pos : 0 < W.length) (low : W.length ≤ j)
    (high : j < W.length + n) :
    (expandSchedule alg n W).getD j 0 = scheduleRecurrence alg (expandSchedule alg n W) j := by
  induction n generalizing W with
  | zero => omega
  | succ n ih =>
    simp only [expandSchedule]
    obtain rfl | later := Nat.eq_or_lt_of_le low
    · obtain ⟨rest, e⟩ := prefix_expandSchedule alg n (W ++ [nextScheduleWord alg W])
      rw [← e, List.append_assoc, scheduleRecurrence_append pos le_rfl, ← nextScheduleWord_eq_recurrence,
        List.getD_append_right _ _ _ _ le_rfl, Nat.sub_self]
      rfl
    · have length : (W ++ [nextScheduleWord alg W]).length = W.length + 1 := List.length_append
      exact ih (by omega) (by omega) (by omega)

theorem Alg.rounds_eq_add (alg : Alg) : 16 + (alg.rounds - 16) = alg.rounds := by
  cases alg <;> rfl

@[simp] theorem messageSchedule_length (alg : Alg) (M : List Byte) : (messageSchedule alg M).length = alg.rounds := by
  rw [messageSchedule, expandSchedule_length, parseBlock_length, Alg.rounds_eq_add]

theorem messageSchedule_getD_block {j : Nat} (h : j < 16) (alg : Alg) (M : List Byte) :
    (messageSchedule alg M).getD j 0 = wordOfBytes alg ((M.drop (j * (alg.w / 8))).take (alg.w / 8)) := by
  obtain ⟨rest, e⟩ := prefix_expandSchedule alg (alg.rounds - 16) (parseBlock alg M)
  rw [messageSchedule, ← e, List.getD_append _ _ _ _ (by simpa using h), parseBlock_getD h]

theorem messageSchedule_getD_recurrence {alg : Alg} {j : Nat} (low : 16 ≤ j) (high : j < alg.rounds) (M : List Byte) :
    (messageSchedule alg M).getD j 0 = scheduleRecurrence alg (messageSchedule alg M) j :=
  expandSchedule_getD (by simp) (by simpa using low) (by simpa [Alg.rounds_eq_add] using high)

/-- Settles O29: expansion appends `R - 16` words to the block's 16, each the recurrence over the words before it. -/
theorem scheduleFollowsTheRecurrence : Obligations.ScheduleFollowsTheRecurrence := fun alg M _ =>
  ⟨messageSchedule_length alg M, fun _ h => messageSchedule_getD_block h alg M,
    fun _ low high => messageSchedule_getD_recurrence low high M⟩

/-! ## The rounds (R114 to R116) -/

/-- The datapath after rounds `0 … n − 1`. -/
def Datapath.afterRounds {alg : Alg} (dp : Datapath alg) (n : Nat) : Datapath alg :=
  (List.range n).foldl Datapath.round dp

theorem Datapath.afterRounds_succ {alg : Alg} (dp : Datapath alg) (n : Nat) :
    dp.afterRounds (n + 1) = (dp.afterRounds n).round n := by
  simp only [afterRounds, List.range_succ, List.foldl_append, List.foldl_cons, List.foldl_nil]

@[simp] theorem Datapath.round_W {alg : Alg} (dp : Datapath alg) (t : Nat) : (dp.round t).W = dp.W := rfl

@[simp] theorem Datapath.afterRounds_W {alg : Alg} (dp : Datapath alg) (n : Nat) : (dp.afterRounds n).W = dp.W := by
  induction n with
  | zero => rfl
  | succ n ih => rw [afterRounds_succ, round_W, ih]

/-- R115: the working variables after a round with round constant `K` and schedule word `W`. -/
def WorkVars.next {alg : Alg} (v : WorkVars alg) (K W : BitVec alg.w) : WorkVars alg :=
  let T1 := v.h + bigSigma1 alg v.e + ch v.e v.f v.g + K + W
  let T2 := bigSigma0 alg v.a + maj v.a v.b v.c
  ⟨T1 + T2, v.a, v.b, v.c, v.d + T1, v.e, v.f, v.g⟩

theorem Datapath.round_vars {alg : Alg} (dp : Datapath alg) (t : Nat) :
    (dp.round t).vars = dp.vars.next ((roundConstants alg).getD t 0) (dp.W.toList.getD t 0) := rfl

theorem Datapath.load_vars {alg : Alg} (dp : Datapath alg) (H : Vector (BitVec alg.w) 8) (M : List Byte) :
    (dp.load H M).vars = ⟨H[0], H[1], H[2], H[3], H[4], H[5], H[6], H[7]⟩ := rfl

/-- The datapath's schedule registers hold the whole message schedule. -/
theorem Datapath.load_W {alg : Alg} (dp : Datapath alg) (H : Vector (BitVec alg.w) 8) (M : List Byte) :
    (dp.load H M).W.toList = messageSchedule alg M := by
  refine List.ext_getElem (by simp) fun j _ _ => ?_
  simp [load]

theorem Datapath.load_afterRounds_vars_succ {alg : Alg} (dp : Datapath alg) (H : Vector (BitVec alg.w) 8) (M : List Byte)
    (t : Nat) : ((dp.load H M).afterRounds (t + 1)).vars =
      ((dp.load H M).afterRounds t).vars.next ((roundConstants alg).getD t 0) ((messageSchedule alg M).getD t 0) := by
  rw [afterRounds_succ, round_vars, afterRounds_W, load_W]

theorem compress_eq_addBack (alg : Alg) (H : Vector (BitVec alg.w) 8) (M : List Byte) :
    compress alg H M = addBack H (((Datapath.zero alg).load H M).afterRounds alg.rounds).vars := rfl

/-- Settles O30: the working variables after each number of rounds are the sequence. -/
theorem compressionIsTheRoundsInOrder : Obligations.CompressionIsTheRoundsInOrder := fun alg H M =>
  ⟨fun t => (((Datapath.zero alg).load H M).afterRounds t).vars, Datapath.load_vars _ H M,
    fun t _ => Datapath.load_afterRounds_vars_succ _ H M t, compress_eq_addBack alg H M⟩

end Sys2Proof.Machine
end

section
/-! The incremental hasher (spec/41_hasher.md): the two forms of `Absorb`, O32, and
ONESHOT against INIT, UPDATE and FINAL, O39. -/

namespace Sys2Proof.Machine

variable {alg : Alg}

/-! ## `Absorb` in its two forms (R140, R141) -/

/-- What a context has absorbed so far: its state words and its buffered bytes. -/
def Context.absorbed (c : Context alg) : Absorbed alg := { H := c.H, pending := c.pending }

theorem absorbWholeBlocks_short {d : List Byte} (h : d.length < alg.blockSize) (H : Vector (BitVec alg.w) 8) :
    absorbWholeBlocks H d = { H := H, pending := d } := by
  simp [absorbWholeBlocks, Nat.div_eq_of_lt h, compressBlocks]

theorem absorbWholeBlocks_block {block : List Byte} (h : block.length = alg.blockSize) (H : Vector (BitVec alg.w) 8)
    (d : List Byte) : absorbWholeBlocks H (block ++ d) = absorbWholeBlocks (compress alg H block) d := by
  have count : (block ++ d).length / alg.blockSize = d.length / alg.blockSize + 1 := by
    rw [List.length_append, h, Nat.add_div_left _ alg.blockSize_pos]
  have offset : (d.length / alg.blockSize + 1) * alg.blockSize = block.length + d.length / alg.blockSize * alg.blockSize := by
    rw [h, Nat.succ_mul, Nat.add_comm]
  simp only [absorbWholeBlocks, count, compressBlocks, List.take_left' h, List.drop_left' h, offset,
    List.drop_length_add_append]

/-- R141's form: the stream is the buffered bytes and then the data, and its whole blocks are compressed. -/
theorem Context.absorb_absorbed (c : Context alg) (d : List Byte) :
    (c.absorb d).absorbed = absorbWholeBlocks c.H (c.pending ++ d) := by
  induction d generalizing c with
  | nil => rw [absorb_nil, List.append_nil, absorbWholeBlocks_short (by simp), absorbed]
  | cons x d ih =>
    rw [absorb_cons, ih, List.append_cons]
    obtain room | full : c.bufLen.val + 1 < alg.blockSize ∨ c.bufLen.val + 1 = alg.blockSize := by
      have := c.bufLen.isLt
      omega
    · obtain ⟨hH, hpending⟩ := c.pushByte_short x room
      rw [hH, hpending]
    · obtain ⟨hH, hpending⟩ := c.pushByte_full x full
      have block : (c.pending ++ [x]).length = alg.blockSize := by
        rw [List.length_append, pending_length, List.length_singleton, full]
      rw [hH, hpending, List.nil_append, absorbWholeBlocks_block block]

/-- R140's form is about the same stream. -/
theorem Context.absorbByBlocks_eq (c : Context alg) (d : List Byte) :
    c.absorbByBlocks d = absorbWholeBlocks c.H (c.pending ++ d) := by
  have room := c.bufLen.isLt
  unfold absorbByBlocks
  split
  next _ =>
    dsimp only
    split
    next full => rw [← absorbWholeBlocks_block full, List.append_assoc, List.take_append_drop]
    next partly =>
      have short : d.length < alg.blockSize - c.bufLen.val := by
        simp only [List.length_append, pending_length, List.length_take] at partly
        omega
      rw [Nat.min_eq_left (by omega), List.take_length, absorbWholeBlocks_short]
      simp only [List.length_append, pending_length]
      omega
  next empty =>
    have : c.pending = [] := List.eq_nil_of_length_eq_zero (by simpa using empty)
    rw [this, List.nil_append]

/-- The two forms of `Absorb` agree. -/
theorem Context.absorb_eq_absorbByBlocks (c : Context alg) (d : List Byte) : (c.absorb d).absorbed = c.absorbByBlocks d :=
  (c.absorb_absorbed d).trans (c.absorbByBlocks_eq d).symm

theorem Context.absorb_H (c : Context alg) (d : List Byte) :
    (c.absorb d).H = compressBlocks alg ((c.bufLen.val + d.length) / alg.blockSize) c.H (c.pending ++ d) := by
  have e := congrArg Absorbed.H (c.absorb_absorbed d)
  simpa only [absorbed, absorbWholeBlocks, List.length_append, pending_length] using e

@[simp] theorem Context.init_pending (alg : Alg) : (Context.init alg).pending = [] :=
  List.take_zero

theorem Context.init_absorb_absorbed (alg : Alg) (S : List Byte) :
    ((Context.init alg).absorb S).absorbed = absorbWholeBlocks (initialState alg) S := by
  rw [absorb_absorbed, init_pending, List.nil_append]
  rfl

/-- Settles O32: both forms compress the whole blocks of one stream, the buffered bytes and then the data. -/
theorem absorbByBytesIsAbsorbByBlocks : Obligations.AbsorbByBytesIsAbsorbByBlocks := by
  refine ⟨fun alg c data => ?twoForms, fun alg S => ?fresh⟩
  case twoForms =>
    have forms := c.absorb_eq_absorbByBlocks data
    have pending := congrArg Absorbed.pending forms
    exact ⟨congrArg Absorbed.H forms, pending, (Context.pending_length _).symm.trans (congrArg List.length pending),
      c.absorb_bitCount data, c.absorb_H data⟩
  case fresh =>
    have stream := Context.init_absorb_absorbed alg S
    refine ⟨congrArg Absorbed.H stream, ?_⟩
    rw [← Nat.div_mul_self_eq_mod_sub_self]
    exact congrArg Absorbed.pending stream

/-! ## What the next command finds -/

/-- A command stored to CMD in `t` finds the operands, the bytes and the buffer memory size that it finds in `s` (R22, R77). -/
structure SameInputs (s t : State) : Prop where
  argA : t.argA = s.argA
  argB : t.argB = s.argB
  argLen : t.argLen = s.argLen
  mem : t.mem = s.mem
  memSize : t.memSize = s.memSize

theorem SameInputs.trans {s t u : State} (h : SameInputs s t) (h' : SameInputs t u) : SameInputs s u :=
  ⟨h'.argA.trans h.argA, h'.argB.trans h.argB, h'.argLen.trans h.argLen, h'.mem.trans h.mem, h'.memSize.trans h.memSize⟩

theorem SameInputs.refl (s : State) : SameInputs s s := ⟨rfl, rfl, rfl, rfl, rfl⟩

theorem SameInputs.accept {s t : State} (h : SameInputs s t) {w : Word} : SameInputs s (t.accept w) :=
  h.trans ⟨rfl, rfl, rfl, rfl, rfl⟩

theorem SameInputs.begin {s t : State} (h : SameInputs s t) : SameInputs s t.begin :=
  h.trans ⟨rfl, rfl, rfl, rfl, rfl⟩

theorem SameInputs.afterFetch {s t : State} (h : SameInputs s t) {addr n : Nat} : SameInputs s (t.afterFetch addr n) :=
  h.trans ⟨rfl, rfl, rfl, rfl, rfl⟩

theorem SameInputs.setSlot {s t : State} (h : SameInputs s t) {i : Nat} {c : Context alg} :
    SameInputs s (t.setSlot alg i c) :=
  h.trans ⟨by simp [State.argA], by simp [State.argB], by simp [State.argLen], by simp, by simp⟩

theorem SameInputs.clearDatapath {s t : State} (h : SameInputs s t) : SameInputs s (t.clearDatapath alg) :=
  h.trans ⟨by simp [State.argA], by simp [State.argB], by simp [State.argLen], by simp, by simp⟩

theorem SameInputs.complete {s t : State} (h : SameInputs s t) {code : StatusCode} : SameInputs s (t.complete code) :=
  h.trans ⟨rfl, rfl, rfl, rfl, rfl⟩

theorem SameInputs.accept_opA {s t : State} (h : SameInputs s t) (w : Word) : (t.accept w).opA = s.argA.toNat :=
  congrArg BitVec.toNat h.argA

theorem SameInputs.accept_opB {s t : State} (h : SameInputs s t) (w : Word) : (t.accept w).opB = s.argB.toNat :=
  congrArg BitVec.toNat h.argB

theorem SameInputs.accept_opLen {s t : State} (h : SameInputs s t) (w : Word) : (t.accept w).opLen = s.argLen.toNat :=
  congrArg BitVec.toNat h.argLen

theorem SameInputs.accept_inRange {s t : State} (h : SameInputs s t) (w : Word) (addr n : Nat) :
    (t.accept w).inRange addr n = s.inRange addr n := by
  rw [State.inRange, State.accept_memSize, h.memSize, State.inRange]

theorem SameInputs.accept_inputRange {s t : State} (h : SameInputs s t) (w : Word) :
    (t.accept w).inRange (t.accept w).opA (t.accept w).opLen = s.inRange s.argA.toNat s.argLen.toNat := by
  rw [h.accept_opA, h.accept_opLen, h.accept_inRange]

theorem SameInputs.accept_outputRange {s t : State} (h : SameInputs s t) (w : Word) (n : Nat) :
    (t.accept w).inRange (t.accept w).opB n = s.inRange s.argB.toNat n := by
  rw [h.accept_opB, h.accept_inRange]

/-- No byte is raced yet (R22), so the command reads its input as it stands. -/
theorem SameInputs.accept_input {s t : State} (h : SameInputs s t) (w : Word) :
    (t.accept w).fetched (t.accept w).opA (t.accept w).opLen = s.bytesAt s.argA.toNat s.argLen.toNat := by
  rw [State.fetched_eq_bytesAt (t.accept_raced w), h.accept_opA, h.accept_opLen, State.bytesAt, State.accept_mem, h.mem,
    State.bytesAt]

/-! ## A command whose checks all pass -/

theorem State.setSlot_getElem?_self {s : State} {i : Nat} (valid : i < s.nCtx alg) (c : Context alg) :
    ((s.setSlot alg i c).slots alg)[i]? = some c := by
  rw [setSlot_slots_self, List.getElem?_set_self valid]

theorem State.nCtx_of_getElem? {s : State} {i : Nat} {c : Context alg} (slot : (s.slots alg)[i]? = some c) : i < s.nCtx alg :=
  (List.getElem?_eq_some_iff.1 slot).1

/-- INIT on a valid slot (R143). -/
theorem initCommand_valid {ctx : Nat} {s : State} (valid : ctx < s.nCtx alg) :
    ((initCommand alg ctx true s).slots alg)[ctx]? = some (Context.init alg) ∧
      SameInputs s (initCommand alg ctx true s) := by
  obtain ⟨invalid, -⟩ | ⟨-, -, e⟩ := initCommand_cases alg ctx true s
  · exact absurd ⟨rfl, valid⟩ invalid
  · rw [e]
    refine ⟨?_, (SameInputs.refl s).begin.setSlot.complete⟩
    rw [State.complete_slots, State.setSlot_getElem?_self (by rwa [State.begin_nCtx])]

theorem Context.init_live (alg : Alg) : (Context.init alg).live = true := rfl

theorem Context.append_live (c : Context alg) (d : List Byte) : (c.append d).live = true := rfl

theorem Context.init_bitCount_toNat (alg : Alg) : (Context.init alg).bitCount.toNat = 0 := BitVec.toNat_zero

/-- Absorbing nothing only moves `life` (R144 with LEN = 0). -/
theorem Context.append_nil (c : Context alg) : c.append [] = { c with life := .accum } := by
  simp [append]

/-- UPDATE on a live slot, an empty one too (R144). -/
theorem updateCommand_live {ctx : Nat} {s : State} {c : Context alg} (slot : (s.slots alg)[ctx]? = some c)
    (live : c.live = true) (fits : counterFits alg c.bitCount.toNat s.opLen = true)
    (range : s.inRange s.opA s.opLen = true) :
    ((updateCommand alg ctx true true s).slots alg)[ctx]? = some (c.append (s.fetched s.opA s.opLen)) ∧
      SameInputs s (updateCommand alg ctx true true s) := by
  have valid := State.nCtx_of_getElem? slot
  obtain ⟨invalid, -⟩ | ⟨c', -, slot', path⟩ := updateCommand_cases alg ctx true true s
  · exact absurd ⟨rfl, valid⟩ invalid
  obtain rfl : c = c' := Option.some.inj (slot.symm.trans slot')
  obtain ⟨no, -⟩ | ⟨-, dead, -⟩ | ⟨-, empty, e⟩ | ⟨-, -, -, overflow, -⟩ | ⟨-, -, -, -, out, -⟩ | ⟨-, -, -, -, -, e⟩ := path
  · cases no
  · cases live.symm.trans dead
  · rw [e]
    refine ⟨?_, (SameInputs.refl s).begin.setSlot.complete⟩
    have nothing : s.fetched s.opA s.opLen = [] := List.eq_nil_of_length_eq_zero (by rw [State.fetched_length, empty])
    rw [State.complete_slots, State.setSlot_getElem?_self (by rwa [State.begin_nCtx]), nothing, Context.append_nil]
  · cases fits.symm.trans overflow
  · cases range.symm.trans out
  · rw [e]
    refine ⟨?_, (SameInputs.refl s).begin.afterFetch.setSlot.clearDatapath.complete⟩
    rw [State.complete_slots, State.clearDatapath_slots,
      State.setSlot_getElem?_self (by rwa [State.afterFetch_nCtx, State.begin_nCtx])]

/-- FINAL on a live slot (R145), nothing raced. -/
theorem finalCommand_live {ctx : Nat} {s : State} {c : Context alg} (slot : (s.slots alg)[ctx]? = some c)
    (live : c.live = true) (range : s.inRange s.opB alg.digestSize = true) (unraced : s.raced = []) :
    Ended (finalCommand alg ctx true true s) .ok ∧
      (finalCommand alg ctx true true s).mem = s.mem.writeBytes s.opB c.finalize := by
  have valid := State.nCtx_of_getElem? slot
  obtain ⟨invalid, -⟩ | ⟨c', -, slot', path⟩ := finalCommand_cases alg ctx true true s
  · exact absurd ⟨rfl, valid⟩ invalid
  obtain rfl : c = c' := Option.some.inj (slot.symm.trans slot')
  obtain ⟨no, -⟩ | ⟨-, dead, -⟩ | ⟨-, -, out, -⟩ | ⟨-, -, -, e⟩ := path
  · cases no
  · cases live.symm.trans dead
  · cases range.symm.trans out
  · rw [e]
    exact ⟨⟨rfl, rfl⟩, by simp [unraced]⟩

@[simp] theorem oneshotBegin_mem (alg : Alg) (s : State) : (oneshotBegin alg s).mem = s.mem := by
  rw [oneshotBegin, State.setScratch_mem, State.begin_mem]

@[simp] theorem oneshotBegin_raced (alg : Alg) (s : State) : (oneshotBegin alg s).raced = s.raced := by
  rw [oneshotBegin, State.setScratch_raced, State.begin_raced]

@[simp] theorem oneshotAbsorb_mem (alg : Alg) (s : State) : (oneshotAbsorb alg s).mem = s.mem := by
  unfold oneshotAbsorb
  split <;> simp

@[simp] theorem oneshotAbsorb_raced (alg : Alg) (s : State) : (oneshotAbsorb alg s).raced = s.raced := by
  unfold oneshotAbsorb
  split <;> simp

/-- ONESHOT with both operands present (R146), nothing raced. -/
theorem oneshotCommand_inRange {s : State} (fits : counterFits alg 0 s.opLen = true) (rangeA : s.inRange s.opA s.opLen = true)
    (rangeB : s.inRange s.opB alg.digestSize = true) (unraced : s.raced = []) :
    Ended (oneshotCommand alg true true s) .ok ∧ (oneshotCommand alg true true s).mem =
      s.mem.writeBytes s.opB ((Context.init alg).append (s.fetched s.opA s.opLen)).finalize := by
  obtain ⟨no, -⟩ | ⟨-, overflow, -⟩ | ⟨-, -, outA | ⟨-, -, outB⟩, -⟩ | ⟨-, -, -, no, -⟩ | ⟨-, -, -, -, -, e⟩ :=
    oneshotCommand_cases alg true true s
  · cases no
  · cases fits.symm.trans overflow
  · cases rangeA.symm.trans outA
  · cases rangeB.symm.trans outB
  · cases no
  · rw [e, oneshotContext_finalize]
    exact ⟨⟨rfl, rfl⟩, by simp [unraced]⟩

/-- Settles O39: UPDATE and FINAL find the operands and the bytes that ONESHOT does, so all absorb one stream. -/
theorem oneshotIsInitUpdateFinal : Obligations.OneshotIsInitUpdateFinal := by
  intro alg ctx s valid rangeA fits rangeB
  refine ⟨_, _, _, _, exec_oneshot .., exec_init .., exec_update .., exec_final .., ?_⟩
  have same := SameInputs.refl s
  obtain ⟨endT, memT⟩ := oneshotCommand_inRange (alg := alg) (s := s.accept (encode (.oneshot alg true true)))
    (by rwa [same.accept_opLen]) ((same.accept_inputRange _).trans rangeA) ((same.accept_outputRange _ _).trans rangeB)
    (s.accept_raced _)
  obtain ⟨slot1, keeps1⟩ := initCommand_valid (s := s.accept (encode (.init alg ctx true))) (by rwa [State.accept_nCtx])
  have same1 := same.accept.trans keeps1
  obtain ⟨slot2, keeps2⟩ := updateCommand_live (s := State.accept _ (encode (.update alg ctx true true)))
    (by rwa [State.accept_slots]) (Context.init_live alg) (by rwa [Context.init_bitCount_toNat, same1.accept_opLen])
    ((same1.accept_inputRange _).trans rangeA)
  have same2 := same1.accept.trans keeps2
  obtain ⟨endS3, memS3⟩ := finalCommand_live (s := State.accept _ (encode (.final alg ctx true true)))
    (by rwa [State.accept_slots]) (Context.append_live _ _) ((same2.accept_outputRange _ _).trans rangeB)
    (State.accept_raced _ _)
  refine ⟨endT, endS3, fun a => congrArg (Memory.read · a) (memT.trans (.trans ?sameWrite memS3.symm))⟩
  case sameWrite =>
    rw [State.accept_mem, State.accept_mem, same2.mem, same.accept_opB, same2.accept_opB, same.accept_input,
      same1.accept_input]

end Sys2Proof.Machine
end

section
/-! The padding and finalization engine (spec/42_padding.md): where the padding ends, O34, and what
finalization compresses, O36. -/

namespace Sys2Proof.Machine

variable {alg : Alg}

/-! ## The padding (R180 to R182) -/

theorem lengthSize_lt_blockSize (alg : Alg) : alg.lengthSize < alg.blockSize := by cases alg <;> decide

theorem padZeros_fitting {k : Nat} (fits : k < alg.blockSize - alg.lengthSize) :
    padZeros alg k = alg.blockSize - alg.lengthSize - 1 - k :=
  if_pos fits

theorem padZeros_extraBlock {k : Nat} (extra : alg.blockSize - alg.lengthSize ≤ k) :
    padZeros alg k = 2 * alg.blockSize - alg.lengthSize - 1 - k :=
  if_neg (Nat.not_lt.2 extra)

/-- Settles O34: the zero fill and the length in either case of R181. -/
theorem paddingEndsAtABlockBoundary : Obligations.PaddingEndsAtABlockBoundary := by
  intro alg k bc inBlock
  have lengthFits := lengthSize_lt_blockSize alg
  have total := pad_length alg inBlock bc
  refine ⟨fun fits => ?fitting, fun extra => ?extraBlock⟩
  case fitting =>
    rw [if_pos fits] at total
    rw [padZeros_fitting fits]
    exact ⟨Nat.sub_le _ _, Nat.eq_sub_of_add_eq' total⟩
  case extraBlock =>
    rw [if_neg (Nat.not_lt.2 extra)] at total
    rw [padZeros_extraBlock extra]
    exact ⟨by omega, by omega, Nat.eq_sub_of_add_eq' total⟩

/-! ## The blocks that finalization compresses (R186) -/

/-- How many blocks `k` buffered bytes make with their padding. -/
def finalBlocks (alg : Alg) (k : Nat) : Nat := if k < alg.blockSize - alg.lengthSize then 1 else 2

theorem padded_length_div (alg : Alg) {k : Nat} (inBlock : k < alg.blockSize) (bc : Nat) :
    (k + (pad alg k bc).length) / alg.blockSize = finalBlocks alg k := by
  rw [pad_length alg inBlock, finalBlocks]
  split
  · exact Nat.div_self alg.blockSize_pos
  · exact Nat.mul_div_cancel _ alg.blockSize_pos

/-- A message and its padding: the whole blocks of the message, then those of its tail with the padding. -/
theorem padded_message_length_div (alg : Alg) (n bc : Nat) :
    (n + (pad alg (n % alg.blockSize) bc).length) / alg.blockSize =
      n / alg.blockSize + finalBlocks alg (n % alg.blockSize) :=
  calc (n + (pad alg (n % alg.blockSize) bc).length) / alg.blockSize
    _ = (alg.blockSize * (n / alg.blockSize) + (n % alg.blockSize + (pad alg (n % alg.blockSize) bc).length)) /
        alg.blockSize := by rw [← Nat.add_assoc, Nat.div_add_mod]
    _ = n / alg.blockSize + (n % alg.blockSize + (pad alg (n % alg.blockSize) bc).length) / alg.blockSize :=
      Nat.mul_add_div alg.blockSize_pos _ _
    _ = n / alg.blockSize + finalBlocks alg (n % alg.blockSize) := by
      rw [padded_length_div alg (Nat.mod_lt n alg.blockSize_pos)]

/-- R186 for any context: the buffered bytes and the padding make one block or two. -/
theorem Context.finalize_eq (c : Context alg) :
    c.finalize = digestBytes (compressBlocks alg (finalBlocks alg c.bufLen) c.H
      (c.pending ++ pad alg c.bufLen c.bitCount.toNat)) := by
  rw [finalize, padded, absorb_H, padded_length_div alg c.bufLen.isLt]

/-- The state words and the buffered bytes that `Absorb` leaves depend on no other field of the context. -/
theorem Context.absorb_absorbed_congr {c c' : Context alg} (same : c.absorbed = c'.absorbed) (d : List Byte) :
    (c.absorb d).absorbed = (c'.absorb d).absorbed := by
  rw [absorb_absorbed, absorb_absorbed, show c.H = c'.H from congrArg Absorbed.H same,
    show c.pending = c'.pending from congrArg Absorbed.pending same]

/-- UPDATE absorbs its data; the counter and `life` do not matter to that (R144). -/
theorem Context.append_absorbed (c : Context alg) (d : List Byte) : (c.append d).absorbed = (c.absorb d).absorbed :=
  absorb_absorbed_congr
    (c := { c with bitCount := c.bitCount + BitVec.ofNat alg.counterWidth (8 * d.length) }) (c' := c) rfl d

/-- What follows an UPDATE is absorbed as one stream with its data. -/
theorem Context.append_absorb_absorbed (c : Context alg) (d e : List Byte) :
    ((c.append d).absorb e).absorbed = absorbWholeBlocks c.H (c.pending ++ (d ++ e)) := by
  rw [absorb_absorbed_congr (c.append_absorbed d), ← absorb_append, absorb_absorbed]

theorem Context.init_append_bufLen (alg : Alg) (m : List Byte) :
    ((Context.init alg).append m).bufLen.val = m.length % alg.blockSize := by
  rw [append_bufLen]
  exact congrArg (· % alg.blockSize) (Nat.zero_add _)

theorem Context.init_append_bitCount (alg : Alg) (m : List Byte) :
    ((Context.init alg).append m).bitCount = BitVec.ofNat alg.counterWidth (8 * m.length) := by
  rw [append_bitCount]
  exact BitVec.zero_add _

/-- R186 for a whole message: one fold over the blocks of the padded message. -/
theorem Context.init_append_finalize (alg : Alg) (m : List Byte) :
    ((Context.init alg).append m).finalize =
      digestBytes (compressBlocks alg (m.length / alg.blockSize + finalBlocks alg (m.length % alg.blockSize))
        (initialState alg)
        (m ++ pad alg (m.length % alg.blockSize) (BitVec.ofNat alg.counterWidth (8 * m.length)).toNat)) := by
  rw [← padded_message_length_div, finalize, padded, init_append_bufLen, init_append_bitCount, ← List.length_append]
  refine congrArg digestBytes ?state
  case state =>
    have stream := (Context.init alg).append_absorb_absorbed m
      (pad alg (m.length % alg.blockSize) (BitVec.ofNat alg.counterWidth (8 * m.length)).toNat)
    rw [init_pending, List.nil_append] at stream
    exact congrArg Absorbed.H stream

/-- Settles O36: the padding completes one block or two, and a message is absorbed as one stream with its padding. -/
theorem finalizeCompressesOnceOrTwice : Obligations.FinalizeCompressesOnceOrTwice :=
  fun alg c => ⟨c.finalize_eq, fun m => Context.init_append_finalize alg m⟩

end Sys2Proof.Machine
end

section
/-! The hex serializer, TOHEX's characters (R200, R201; spec/43_encoding_utils.md). -/

namespace Sys2Proof.Machine

/-! ## The alphabet -/

/-- R200: the digit values below 10 are the characters from `0` on, the others the characters from `a` on. -/
theorem hexDigit_eq_ascii (v : BitVec 4) :
    (v.toNat < 10 → hexDigit v = BitVec.ofNat 8 (0x30 + v.toNat)) ∧
      (10 ≤ v.toNat → hexDigit v = BitVec.ofNat 8 (0x61 + (v.toNat - 10))) := by
  revert v
  decide

/-! ## The characters of a byte sequence -/

@[simp] theorem toHex_nil : toHex [] = [] := rfl

/-- Byte 0's two characters come first, the high nibble's before the low one's (R201). -/
@[simp] theorem toHex_cons (b : Byte) (d : List Byte) :
    toHex (b :: d) = hexDigit (b.extractLsb' 4 4) :: hexDigit (b.extractLsb' 0 4) :: toHex d := rfl

/-- Two characters a byte and no terminator (R201). -/
@[simp] theorem toHex_length (d : List Byte) : (toHex d).length = 2 * d.length := by
  induction d with
  | nil => rfl
  | cons b d ih => simp only [toHex_cons, List.length_cons, ih, Nat.mul_succ]

/-- Byte `i`'s characters stand at `2i` and `2i + 1`, after two for each byte before it. -/
theorem toHex_getElem? (d : List Byte) (i : Nat) (h : i < d.length) :
    (toHex d)[2 * i]? = some (hexDigit (d[i].extractLsb' 4 4)) ∧
      (toHex d)[2 * i + 1]? = some (hexDigit (d[i].extractLsb' 0 4)) := by
  induction d generalizing i with
  | nil => exact absurd h (Nat.not_lt_zero i)
  | cons b d ih =>
    cases i with
    | zero => exact ⟨rfl, rfl⟩
    | succ i => exact ih i (Nat.lt_of_succ_lt_succ h)

/-- Settles O26: by induction on the bytes for the places of the characters, and by the sixteen digits for their codes. -/
theorem hexRendersHighNibbleFirst : Obligations.HexRendersHighNibbleFirst := by
  intro d
  refine ⟨toHex_length d, fun i h => ?characters⟩
  case characters =>
    obtain ⟨high, low⟩ := toHex_getElem? d i h
    exact ⟨high, low, hexDigit_eq_ascii⟩

end Sys2Proof.Machine
end

section
/-! The command word (spec/30_encoding.md): decoding against encoding, O1 and O2, the opcode map, O3, and its worked
examples, O4. -/

namespace Sys2Proof

/-! ## The fields of a packed word (R70) -/

section
variable (op : BitVec 4) (alg : Alg) (ctx : Nat) (pa pb pc : Bool)

/-- Every bit of a packed word, by the format of R70. -/
theorem packWord_getLsbD (k : Nat) : (packWord op alg ctx pa pb pc).getLsbD k =
    if k < 4 then op.getLsbD k else if k < 5 then (algBit alg).getLsbD (k - 4) else if k < 8 then false
    else if k < 12 then (BitVec.ofNat 4 ctx).getLsbD (k - 8) else if k < 13 then pa else if k < 14 then pb
    else if k < 15 then pc else false := by
  unfold packWord
  change BitVec.getLsbD (w := 17 + 1 + 1 + 1 + 4 + 3 + 1 + 4) _ k = _
  simp only [BitVec.getLsbD_append, Nat.sub_sub]
  simp only [BitVec.ofNat_eq_ofNat, BitVec.getLsbD_zero, BitVec.getLsbD_ofBool]
  split_ifs <;> grind

@[simp] theorem fieldOp_packWord : fieldOp (packWord op alg ctx pa pb pc) = op := by
  refine BitVec.eq_of_getLsbD_eq fun k hk => ?_
  simp [fieldOp, packWord_getLsbD, hk]

@[simp] theorem fieldReservedLow_packWord : fieldReservedLow (packWord op alg ctx pa pb pc) = 0 := by
  refine BitVec.eq_of_getLsbD_eq fun k hk => ?_
  rw [fieldReservedLow, BitVec.getLsbD_extractLsb', packWord_getLsbD, if_neg (by omega), if_neg (by omega), if_pos (by omega)]
  simp

@[simp] theorem fieldReservedHigh_packWord : fieldReservedHigh (packWord op alg ctx pa pb pc) = 0 := by
  refine BitVec.eq_of_getLsbD_eq fun k hk => ?_
  rw [fieldReservedHigh, BitVec.getLsbD_extractLsb', packWord_getLsbD]
  grind

@[simp] theorem fieldAlg_packWord : fieldAlg (packWord op alg ctx pa pb pc) = alg := by
  rw [fieldAlg, packWord_getLsbD]
  cases alg <;> rfl

@[simp] theorem fieldCtx_packWord : fieldCtx (packWord op alg ctx pa pb pc) = ctx % 16 := by
  have field : (packWord op alg ctx pa pb pc).extractLsb' 8 4 = BitVec.ofNat 4 ctx := by
    refine BitVec.eq_of_getLsbD_eq fun k hk => ?_
    rw [BitVec.getLsbD_extractLsb', packWord_getLsbD, if_neg (by omega), if_neg (by omega), if_neg (by omega),
      if_pos (by omega), Nat.add_sub_cancel_left, decide_eq_true hk, Bool.true_and]
  rw [fieldCtx, field, BitVec.toNat_ofNat]

@[simp] theorem fieldPa_packWord : fieldPa (packWord op alg ctx pa pb pc) = pa := packWord_getLsbD ..

@[simp] theorem fieldPb_packWord : fieldPb (packWord op alg ctx pa pb pc) = pb := packWord_getLsbD ..

@[simp] theorem fieldPc_packWord : fieldPc (packWord op alg ctx pa pb pc) = pc := packWord_getLsbD ..

end

theorem algBit_fieldAlg_getLsbD (v : Word) : (algBit (fieldAlg v)).getLsbD 0 = v.getLsbD 4 := by
  unfold fieldAlg
  split
  next h => exact h.symm
  next h => exact (Bool.eq_false_iff.2 h).symm

/-- Bit `k` of a word is bit `k - start` of any field that holds it. -/
theorem getLsbD_field {start len k : Nat} (v : Word) (low : start ≤ k) (high : k < start + len) :
    (v.extractLsb' start len).getLsbD (k - start) = v.getLsbD k := by
  rw [BitVec.getLsbD_extractLsb', Nat.add_sub_cancel' low, decide_eq_true (by omega), Bool.true_and]

/-- A word whose reserved bits are zero is made of its fields. -/
theorem packWord_fields {v : Word} (low : fieldReservedLow v = 0) (high : fieldReservedHigh v = 0) :
    packWord (fieldOp v) (fieldAlg v) (fieldCtx v) (fieldPa v) (fieldPb v) (fieldPc v) = v := by
  refine BitVec.eq_of_getLsbD_eq fun k hk => ?_
  rw [packWord_getLsbD]
  split_ifs with inOp inAlg inLow inCtx inPa inPb inPc
  · exact getLsbD_field v (Nat.zero_le k) (by omega)
  · obtain rfl : k = 4 := by omega
    exact algBit_fieldAlg_getLsbD v
  · rw [← getLsbD_field (start := 5) (len := 3) v (by omega) (by omega), ← fieldReservedLow, low,
      BitVec.ofNat_eq_ofNat, BitVec.getLsbD_zero]
  · rw [fieldCtx, BitVec.ofNat_toNat, BitVec.setWidth_eq]
    exact getLsbD_field v (by omega) (by omega)
  · obtain rfl : k = 12 := by omega
    rfl
  · obtain rfl : k = 13 := by omega
    rfl
  · obtain rfl : k = 14 := by omega
    rfl
  · rw [← getLsbD_field (start := 15) (len := 17) v (by omega) (by omega), ← fieldReservedHigh, high,
      BitVec.ofNat_eq_ofNat, BitVec.getLsbD_zero]

/-! ## The words that decode (R80, R81) -/

/-- None of R80's reasons to reject a word holds. -/
structure LegalWord (v : Word) : Prop where
  low : fieldReservedLow v = 0
  high : fieldReservedHigh v = 0
  op : (fieldOp v).toNat < 6
  used : ¬HasUnusedField v

/-- The instruction the fields of a legal word stand for (R71 to R74). -/
def instrOf (v : Word) : Instr :=
  if fieldOp v = 0 then .init (fieldAlg v) (fieldCtx v) (fieldPc v)
  else if fieldOp v = 1 then .update (fieldAlg v) (fieldCtx v) (fieldPa v) (fieldPc v)
  else if fieldOp v = 2 then .final (fieldAlg v) (fieldCtx v) (fieldPb v) (fieldPc v)
  else if fieldOp v = 3 then .oneshot (fieldAlg v) (fieldPa v) (fieldPb v)
  else if fieldOp v = 4 then .tohex (fieldAlg v) (fieldPa v) (fieldPb v)
  else .ctcmp (fieldAlg v) (fieldPa v) (fieldPb v)

theorem decode_of_legal {v : Word} (legal : LegalWord v) : decode v = .ok (instrOf v) := by
  obtain ⟨low, high, op, used⟩ := legal
  unfold HasUnusedField at used
  unfold decode instrOf
  rw [if_neg (by simp [low, high]), if_neg (by omega), if_neg used]
  split_ifs <;> rfl

theorem legal_of_decode {v : Word} {i : Instr} (h : decode v = .ok i) : LegalWord v := by
  unfold decode at h
  split at h
  next => cases h
  next reserved =>
    split at h
    next => cases h
    next op =>
      split at h
      next => cases h
      next used =>
        obtain ⟨low, high⟩ := not_or.1 reserved
        exact ⟨not_not.1 low, not_not.1 high, not_le.1 op, used⟩

theorem decode_eq_ok_iff {v : Word} {i : Instr} : decode v = .ok i ↔ LegalWord v ∧ i = instrOf v := by
  constructor
  · intro h
    have legal := legal_of_decode h
    exact ⟨legal, Except.ok.inj (h.symm.trans (decode_of_legal legal))⟩
  · rintro ⟨legal, rfl⟩
    exact decode_of_legal legal

theorem decode_error_of_not_legal {v : Word} (h : ¬LegalWord v) : ∃ e, decode v = .error e := by
  cases hd : decode v with
  | ok i => exact absurd (legal_of_decode hd) h
  | error e => exact ⟨e, rfl⟩

theorem decode_of_reservedOp {v : Word} (h : 6 ≤ (fieldOp v).toNat) : ∃ e, decode v = .error e :=
  decode_error_of_not_legal fun legal => absurd legal.op (Nat.not_lt.2 h)

/-! ## Decoding against encoding -/

section
variable (alg : Alg) (ctx : Nat) (pa pb pc : Bool)

theorem encode_init : encode (.init alg ctx pc) = packWord 0 alg ctx false false pc := by cases alg <;> rfl

theorem encode_update : encode (.update alg ctx pa pc) = packWord 1 alg ctx pa false pc := by cases alg <;> rfl

theorem encode_final : encode (.final alg ctx pb pc) = packWord 2 alg ctx false pb pc := by cases alg <;> rfl

theorem encode_oneshot : encode (.oneshot alg pa pb) = packWord 3 alg 0 pa pb false := by cases alg <;> rfl

theorem encode_tohex : encode (.tohex alg pa pb) = packWord 4 alg 0 pa pb false := by cases alg <;> rfl

theorem encode_ctcmp : encode (.ctcmp alg pa pb) = packWord 5 alg 0 pa pb false := by cases alg <;> rfl

theorem wf_init : Instr.WellFormed (.init alg ctx pc) ↔ ctx < 16 := by cases alg <;> exact decide_eq_true_iff

theorem wf_update : Instr.WellFormed (.update alg ctx pa pc) ↔ ctx < 16 := by cases alg <;> exact decide_eq_true_iff

theorem wf_final : Instr.WellFormed (.final alg ctx pb pc) ↔ ctx < 16 := by cases alg <;> exact decide_eq_true_iff

theorem wf_oneshot : Instr.WellFormed (.oneshot alg pa pb) := by cases alg <;> rfl

theorem wf_tohex : Instr.WellFormed (.tohex alg pa pb) := by cases alg <;> rfl

theorem wf_ctcmp : Instr.WellFormed (.ctcmp alg pa pb) := by cases alg <;> rfl

end

/-- A packed word is legal if its operation is one and the fields that it does not use are zero. -/
theorem legal_packWord {op : BitVec 4} {alg : Alg} {ctx : Nat} {pa pb pc : Bool} (inRange : op.toNat < 6)
    (used : ¬((op = 0 ∧ (pa ∨ pb)) ∨ (op = 1 ∧ pb) ∨ (op = 2 ∧ pa) ∨ (3 ≤ op.toNat ∧ (ctx % 16 ≠ 0 ∨ pc)))) :
    LegalWord (packWord op alg ctx pa pb pc) where
  low := fieldReservedLow_packWord ..
  high := fieldReservedHigh_packWord ..
  op := by rwa [fieldOp_packWord]
  used := by
    simp only [HasUnusedField, fieldOp_packWord, fieldPa_packWord, fieldPb_packWord, fieldPc_packWord, fieldCtx_packWord]
    exact used

/-- Settles O1: the word of an instruction is legal, and its fields are the instruction's. -/
theorem decodeOfEncodeIsTheInstruction : Obligations.DecodeOfEncodeIsTheInstruction := by
  intro i wf
  rw [decode_eq_ok_iff]
  induction i using Machine.Instr.byOperation with
  | init alg ctx pc =>
    rw [encode_init]
    exact ⟨legal_packWord (by decide) (by simp), by simp [instrOf, Nat.mod_eq_of_lt ((wf_init ..).1 wf)]⟩
  | update alg ctx pa pc =>
    rw [encode_update]
    exact ⟨legal_packWord (by decide) (by simp), by simp [instrOf, Nat.mod_eq_of_lt ((wf_update ..).1 wf)]⟩
  | final alg ctx pb pc =>
    rw [encode_final]
    exact ⟨legal_packWord (by decide) (by simp), by simp [instrOf, Nat.mod_eq_of_lt ((wf_final ..).1 wf)]⟩
  | oneshot alg pa pb =>
    rw [encode_oneshot]
    exact ⟨legal_packWord (by decide) (by simp), by simp [instrOf]⟩
  | tohex alg pa pb =>
    rw [encode_tohex]
    exact ⟨legal_packWord (by decide) (by simp), by simp [instrOf]⟩
  | ctcmp alg pa pb =>
    rw [encode_ctcmp]
    exact ⟨legal_packWord (by decide) (by simp), by simp [instrOf]⟩

theorem fieldCtx_lt (v : Word) : fieldCtx v < 16 := (v.extractLsb' 8 4).isLt

/-- The last of the six operations is what the others leave (R71). -/
theorem fieldOp_eq_five {v : Word} (op : (fieldOp v).toNat < 6) (h0 : fieldOp v ≠ 0) (h1 : fieldOp v ≠ 1) (h2 : fieldOp v ≠ 2)
    (h3 : fieldOp v ≠ 3) (h4 : fieldOp v ≠ 4) : fieldOp v = 5 := by
  bv_omega

theorem fields_of_noContext {v : Word} (used : ¬HasUnusedField v) (op : fieldOp v = 3 ∨ fieldOp v = 4 ∨ fieldOp v = 5) :
    fieldCtx v = 0 ∧ fieldPc v = false := by
  have := three_le_fieldOp op
  simp only [HasUnusedField] at used
  simp_all

theorem encode_instrOf {v : Word} (legal : LegalWord v) : encode (instrOf v) = v := by
  refine .trans ?_ (packWord_fields legal.low legal.high)
  have used := legal.used
  unfold instrOf
  split_ifs with h0 h1 h2 h3 h4
  · obtain ⟨pa, pb⟩ : fieldPa v = false ∧ fieldPb v = false := by simpa [HasUnusedField, h0] using used
    rw [encode_init, h0, pa, pb]
  · have pb : fieldPb v = false := by simpa [HasUnusedField, h1] using used
    rw [encode_update, h1, pb]
  · have pa : fieldPa v = false := by simpa [HasUnusedField, h2] using used
    rw [encode_final, h2, pa]
  · obtain ⟨hc, hp⟩ := fields_of_noContext used (.inl h3)
    rw [encode_oneshot, h3, hc, hp]
  · obtain ⟨hc, hp⟩ := fields_of_noContext used (.inr (.inl h4))
    rw [encode_tohex, h4, hc, hp]
  · have h5 := fieldOp_eq_five legal.op h0 h1 h2 h3 h4
    obtain ⟨hc, hp⟩ := fields_of_noContext used (.inr (.inr h5))
    rw [encode_ctcmp, h5, hc, hp]

theorem wf_instrOf (v : Word) : (instrOf v).WellFormed := by
  unfold instrOf
  split_ifs
  · exact (wf_init ..).2 (fieldCtx_lt v)
  · exact (wf_update ..).2 (fieldCtx_lt v)
  · exact (wf_final ..).2 (fieldCtx_lt v)
  · exact wf_oneshot ..
  · exact wf_tohex ..
  · exact wf_ctcmp ..

/-- Settles O2: a legal word is packed from its fields, and the ones its operation does not use are zero. -/
theorem encodeOfDecodeIsTheWord : Obligations.EncodeOfDecodeIsTheWord := by
  intro v i h
  obtain ⟨legal, rfl⟩ := decode_eq_ok_iff.1 h
  exact ⟨wf_instrOf v, encode_instrOf legal⟩

/-! ## The opcode map (R86) -/

/-- What a word that matches a row holds in a field that the row's mask covers. -/
theorem field_of_matches {r : OpcodeRow} {v : Word} (h : r.matches v = true) {start len : Nat}
    (covered : r.2.extractLsb' start len = BitVec.allOnes len) : v.extractLsb' start len = r.1.extractLsb' start len := by
  rw [← eq_of_beq h, BitVec.extractLsb'_and, covered, BitVec.and_allOnes]

theorem bit_of_matches {r : OpcodeRow} {v : Word} (h : r.matches v = true) {k : Nat} (covered : r.2.getLsbD k = true) :
    v.getLsbD k = r.1.getLsbD k := by
  rw [← eq_of_beq h, BitVec.getLsbD_and, covered, Bool.and_true]

/-- The twelve rows, one by one. -/
theorem forall_mem_opcodeRows {P : OpcodeRow → Prop} : (∀ r ∈ opcodeRows, P r) ↔
    P (0x00000000, 0xFFFFB0FF) ∧ P (0x00000010, 0xFFFFB0FF) ∧ P (0x00000001, 0xFFFFA0FF) ∧ P (0x00000011, 0xFFFFA0FF) ∧
    P (0x00000002, 0xFFFF90FF) ∧ P (0x00000012, 0xFFFF90FF) ∧
    P (0x00000003, 0xFFFFCFFF) ∧ P (0x00000013, 0xFFFFCFFF) ∧ P (0x00000004, 0xFFFFCFFF) ∧ P (0x00000014, 0xFFFFCFFF) ∧
    P (0x00000005, 0xFFFFCFFF) ∧ P (0x00000015, 0xFFFFCFFF) := by
  simp [opcodeRows]

/-- Every row's mask covers the operation, the ALG bit and the reserved bits, and its match has one of the six operations. -/
theorem opcodeRows_cover : ∀ r ∈ opcodeRows,
    r.2.extractLsb' 0 5 = BitVec.allOnes 5 ∧ r.2.extractLsb' 0 4 = BitVec.allOnes 4 ∧
      r.2.extractLsb' 5 3 = BitVec.allOnes 3 ∧ r.2.extractLsb' 15 17 = BitVec.allOnes 17 ∧
      fieldReservedLow r.1 = 0 ∧ fieldReservedHigh r.1 = 0 ∧ (fieldOp r.1).toNat < 6 := by
  rw [forall_mem_opcodeRows]
  refine ⟨?_, ?_, ?_, ?_, ?_, ?_, ?_, ?_, ?_, ?_, ?_, ?_⟩ <;> decide

/-- Every row's mask covers the fields that its operation does not use, and its match has zeros there. -/
theorem opcodeRows_cover_unused : ∀ r ∈ opcodeRows,
    (fieldOp r.1 = 0 ∨ fieldOp r.1 = 2 → r.2.getLsbD 12 = true ∧ fieldPa r.1 = false) ∧
      (fieldOp r.1 = 0 ∨ fieldOp r.1 = 1 → r.2.getLsbD 13 = true ∧ fieldPb r.1 = false) ∧
      (3 ≤ (fieldOp r.1).toNat → (r.2.getLsbD 14 = true ∧ fieldPc r.1 = false) ∧
        r.2.extractLsb' 8 4 = BitVec.allOnes 4 ∧ fieldCtx r.1 = 0) := by
  rw [forall_mem_opcodeRows]
  refine ⟨?_, ?_, ?_, ?_, ?_, ?_, ?_, ?_, ?_, ?_, ?_, ?_⟩ <;> decide

/-- The operation and the ALG bit tell the rows apart. -/
theorem opcodeRows_distinct : ∀ r ∈ opcodeRows, ∀ r' ∈ opcodeRows, r'.1.extractLsb' 0 5 = r.1.extractLsb' 0 5 → r' = r := by
  have nodup : (opcodeRows.map fun r => r.1.extractLsb' 0 5).Nodup := by decide
  exact fun r hr r' hr' e => List.inj_on_of_nodup_map nodup hr' hr e

theorem legal_of_matches {r : OpcodeRow} {v : Word} (hr : r ∈ opcodeRows) (h : r.matches v = true) : LegalWord v := by
  obtain ⟨-, opCovered, lowCovered, highCovered, low, high, op⟩ := opcodeRows_cover r hr
  obtain ⟨paUnused, pbUnused, noContext⟩ := opcodeRows_cover_unused r hr
  have sameOp : fieldOp v = fieldOp r.1 := field_of_matches h opCovered
  refine ⟨(field_of_matches h lowCovered).trans low, (field_of_matches h highCovered).trans high, sameOp ▸ op, ?used⟩
  have pa (u : fieldOp r.1 = 0 ∨ fieldOp r.1 = 2) : fieldPa v = false :=
    (bit_of_matches h (paUnused u).1).trans (paUnused u).2
  have pb (u : fieldOp r.1 = 0 ∨ fieldOp r.1 = 1) : fieldPb v = false :=
    (bit_of_matches h (pbUnused u).1).trans (pbUnused u).2
  rintro (⟨o, p | p⟩ | ⟨o, p⟩ | ⟨o, p⟩ | ⟨o, p⟩) <;> rw [sameOp] at o
  · exact Bool.false_ne_true ((pa (.inl o)).symm.trans p)
  · exact Bool.false_ne_true ((pb (.inl o)).symm.trans p)
  · exact Bool.false_ne_true ((pb (.inr o)).symm.trans p)
  · exact Bool.false_ne_true ((pa (.inr o)).symm.trans p)
  · obtain ⟨⟨pcCovered, pc⟩, ctxCovered, ctx⟩ := noContext o
    obtain p | p := p
    · exact p ((congrArg BitVec.toNat (field_of_matches h ctxCovered)).trans ctx)
    · exact Bool.false_ne_true (((bit_of_matches h pcCovered).trans pc).symm.trans p)

theorem row_mem_opcodeRows (i : Instr) : i.row ∈ opcodeRows := by
  cases i <;> simp [Instr.row, opcodeRows]

/-- The word of a well-formed instruction matches the instruction's row. -/
theorem row_matches_encode (i : Instr) : Laws.OwnRow.Statement i := by
  cases i with
  | init256 ctx pc => exact Laws.OwnRow.init256 ctx pc
  | init512 ctx pc => exact Laws.OwnRow.init512 ctx pc
  | update256 ctx pa pc => exact Laws.OwnRow.update256 ctx pa pc
  | update512 ctx pa pc => exact Laws.OwnRow.update512 ctx pa pc
  | final256 ctx pb pc => exact Laws.OwnRow.final256 ctx pb pc
  | final512 ctx pb pc => exact Laws.OwnRow.final512 ctx pb pc
  | oneshot256 pa pb => exact Laws.OwnRow.oneshot256 pa pb
  | oneshot512 pa pb => exact Laws.OwnRow.oneshot512 pa pb
  | tohex256 pa pb => exact Laws.OwnRow.tohex256 pa pb
  | tohex512 pa pb => exact Laws.OwnRow.tohex512 pa pb
  | ctcmp256 pa pb => exact Laws.OwnRow.ctcmp256 pa pb
  | ctcmp512 pa pb => exact Laws.OwnRow.ctcmp512 pa pb

theorem row_matches_of_decode {v : Word} {i : Instr} (h : decode v = .ok i) : i.row.matches v = true := by
  obtain ⟨wf, e⟩ := encodeOfDecodeIsTheWord v i h
  exact e ▸ row_matches_encode i wf

theorem matches_unique {r r' : OpcodeRow} {v : Word} (hr : r ∈ opcodeRows) (h : r.matches v = true) (hr' : r' ∈ opcodeRows)
    (h' : r'.matches v = true) : r' = r := by
  obtain ⟨covered, -⟩ := opcodeRows_cover r hr
  obtain ⟨covered', -⟩ := opcodeRows_cover r' hr'
  exact opcodeRows_distinct r hr r' hr' ((field_of_matches h' covered').symm.trans (field_of_matches h covered))

/-- Settles O3: a word that matches a row is legal, and the operation with ALG picks the row. -/
theorem wordIsACommandExactlyWhenItMatchesOneRow : Obligations.WordIsACommandExactlyWhenItMatchesOneRow := by
  refine ⟨fun v => ⟨?oneRow, ?decodes⟩, fun v i h => ⟨row_mem_opcodeRows i, row_matches_of_decode h⟩⟩
  case oneRow =>
    rintro ⟨i, h⟩
    have own := row_matches_of_decode h
    exact ⟨i.row, row_mem_opcodeRows i, own, fun r' => matches_unique (row_mem_opcodeRows i) own⟩
  case decodes =>
    rintro ⟨r, hr, h, -⟩
    exact ⟨_, decode_of_legal (legal_of_matches hr h)⟩

/-- Settles O4: the decoder evaluated on the seven words. -/
theorem workedEncodingsDecode : Obligations.WorkedEncodingsDecode := by
  refine ⟨?_, ?_, ?_, ?_, ?_, ?_, ?_⟩ <;> decide

end Sys2Proof
end

section
/-! What a command leaves unchanged, said once for each shared operation, and the paths of INIT, UPDATE and FINAL: O9 to O17
(spec/41_hasher.md R143 to R145). -/

namespace Sys2Proof.Machine

variable {alg : Alg}

/-! ## The frame of a command -/

/-- What no path of a command changes but a fault and CTCMP: the argument registers, the platform, the fault record and EQ. -/
structure Frame (s t : State) : Prop where
  registers : SameRegisters s t
  platform : SamePlatform s t
  faultRecord : SameFaultRecord s t
  eq : t.eq = s.eq

theorem Frame.refl (s : State) : Frame s s :=
  ⟨⟨rfl, rfl, rfl, rfl, rfl, rfl, rfl⟩, ⟨rfl, rfl, rfl, rfl⟩, ⟨rfl, rfl⟩, rfl⟩

theorem Frame.begin {s t : State} (h : Frame s t) : Frame s t.begin :=
  ⟨h.registers, h.platform, h.faultRecord, h.eq⟩

theorem Frame.afterFetch {s t : State} (h : Frame s t) (addr n : Nat) : Frame s (t.afterFetch addr n) :=
  ⟨h.registers, h.platform, h.faultRecord, h.eq⟩

theorem Frame.store {s t : State} (h : Frame s t) (addr : Nat) (bs : List Byte) : Frame s (t.store addr bs) :=
  ⟨h.registers, h.platform, h.faultRecord, h.eq⟩

theorem Frame.complete {s t : State} (h : Frame s t) (code : StatusCode) : Frame s (t.complete code) :=
  ⟨h.registers, h.platform, h.faultRecord, h.eq⟩

theorem Frame.setSlot {s t : State} (h : Frame s t) (i : Nat) (c : Context alg) : Frame s (t.setSlot alg i c) := by
  cases alg <;> exact ⟨h.registers, h.platform, h.faultRecord, h.eq⟩

theorem Frame.setScratch {s t : State} (h : Frame s t) (c : Context alg) : Frame s (t.setScratch alg c) := by
  cases alg <;> exact ⟨h.registers, h.platform, h.faultRecord, h.eq⟩

theorem Frame.wipeScratch {s t : State} (h : Frame s t) (alg : Alg) : Frame s (t.wipeScratch alg) :=
  h.setScratch _

theorem Frame.clearDatapath {s t : State} (h : Frame s t) (alg : Alg) : Frame s (t.clearDatapath alg) := by
  cases alg <;> exact ⟨h.registers, h.platform, h.faultRecord, h.eq⟩

theorem Ended.complete (s : State) (code : StatusCode) : Ended (s.complete code) code := ⟨rfl, rfl⟩

/-- What a fault leaves behind, but for the hidden state: its record, and nothing touched (R223). -/
structure Faulted (s t : State) (code : StatusCode) : Prop where
  ended : Ended t code
  recorded : FaultRecorded s t code
  slots : SameSlots s t
  memory : SameMemory s t
  registers : SameRegisters s t
  eq : t.eq = s.eq
  platform : SamePlatform s t
  accesses : t.accesses = []

theorem faulted_begin (s : State) (code : StatusCode) : Faulted s (s.begin.raiseFault code) code :=
  ⟨⟨rfl, rfl⟩, ⟨rfl, rfl⟩, ⟨rfl, rfl⟩, fun _ => rfl, (Frame.refl s).registers, rfl, (Frame.refl s).platform, rfl⟩

theorem sameHidden_begin_raiseFault (s : State) (code : StatusCode) : SameHidden s (s.begin.raiseFault code) :=
  ⟨by simp, by simp⟩

/-! ## One slot is set -/

/-- The state after a command that only sets a slot. -/
theorem setSlot_complete_getElem? {s : State} {i : Nat} (valid : i < s.nCtx alg) (c : Context alg) (code : StatusCode) :
    (((s.begin.setSlot alg i c).complete code).slots alg)[i]? = some c := by
  rw [State.complete_slots, State.setSlot_getElem?_self (by rwa [State.begin_nCtx])]

theorem OnlySlot.of_slots {i : Nat} {s u t : State} (h : OnlySlot alg i s u) (slots : ∀ alg', t.slots alg' = u.slots alg') :
    OnlySlot alg i s t := by
  obtain ⟨sizes, others⟩ := h
  exact ⟨fun alg' => (congrArg List.length (slots alg')).trans (sizes alg'),
    fun alg' j other => by rw [slots alg', others alg' j other]⟩

theorem begin_setSlot_onlySlot (s : State) (i : Nat) (c : Context alg) : OnlySlot alg i s (s.begin.setSlot alg i c) := by
  obtain ⟨sizes, others⟩ := s.begin.setSlot_onlySlot alg i c
  exact ⟨fun alg' => (sizes alg').trans (State.begin_nCtx s alg'), fun alg' j other => by simpa using others alg' j other⟩

theorem setSlot_complete_onlySlot (s : State) (i : Nat) (c : Context alg) (code : StatusCode) :
    OnlySlot alg i s ((s.begin.setSlot alg i c).complete code) :=
  (begin_setSlot_onlySlot s i c).of_slots (State.complete_slots _ _)

theorem setSlot_complete_sameHidden (s : State) (i : Nat) (c : Context alg) (code : StatusCode) :
    SameHidden s ((s.begin.setSlot alg i c).complete code) :=
  ⟨by simp, by simp⟩

theorem setSlot_complete_sameMemory (s : State) (i : Nat) (c : Context alg) (code : StatusCode) :
    SameMemory s ((s.begin.setSlot alg i c).complete code) := fun _ => by simp

theorem setSlot_complete_frame (s : State) (i : Nat) (c : Context alg) (code : StatusCode) :
    Frame s ((s.begin.setSlot alg i c).complete code) :=
  ((Frame.refl s).begin.setSlot i c).complete code

theorem Context.wipe_wiped (c : Context alg) : Wiped c.wipe := rfl

/-! ## The slot a valid handle names -/

theorem digestSize_ne_zero (alg : Alg) : alg.digestSize ≠ 0 := by cases alg <;> decide

theorem State.getElem?_of_valid {s : State} {ctx : Nat} (valid : ctx < s.nCtx alg) : ∃ c, (s.slots alg)[ctx]? = some c :=
  ⟨_, List.getElem?_eq_getElem valid⟩

theorem updateCommand_of_slot {ctx : Nat} {c : Context alg} {s : State} (slot : (s.slots alg)[ctx]? = some c) (pa : Bool) :
    updateCommand alg ctx pa true s = updateSlot alg ctx pa c s.begin := by
  rw [updateCommand, State.handle_eq_some.2 ⟨rfl, by rwa [State.begin_slots]⟩]

theorem finalCommand_of_slot {ctx : Nat} {c : Context alg} {s : State} (slot : (s.slots alg)[ctx]? = some c) (pb : Bool) :
    finalCommand alg ctx pb true s = finalSlot alg ctx pb c s.begin := by
  rw [finalCommand, State.handle_eq_some.2 ⟨rfl, by rwa [State.begin_slots]⟩]

theorem initCommand_of_valid {ctx : Nat} {s : State} (valid : ctx < s.nCtx alg) :
    initCommand alg ctx true s = (s.begin.setSlot alg ctx (Context.init alg)).complete .ok := by
  obtain ⟨c, slot⟩ := State.getElem?_of_valid valid
  rw [initCommand, State.handle_eq_some.2 ⟨rfl, by rwa [State.begin_slots]⟩]

/-- Settles O9: INIT only sets its slot. -/
theorem initLoadsTheInitialState : Obligations.InitLoadsTheInitialState := by
  intro alg ctx s valid
  have frame := setSlot_complete_frame s ctx (Context.init alg) .ok
  refine ⟨_, _, (exec_init ..).trans (congrArg _ (initCommand_of_valid valid)), setSlot_complete_getElem? valid _ _, rfl, rfl,
    ?buffer, rfl, rfl, setSlot_complete_onlySlot .., .complete .., frame.registers, frame.faultRecord, frame.eq,
    setSlot_complete_sameMemory _ _ _ _, setSlot_complete_sameHidden .., frame.platform⟩
  case buffer =>
    intro b hb
    simp only [Context.init, Vector.toList_replicate] at hb
    exact List.eq_of_mem_replicate hb

/-! ## An invalid handle (R78, R147) -/

theorem handle_none {ctx : Nat} {pc : Bool} {s : State} (invalid : ¬(pc = true ∧ ctx < s.nCtx alg)) :
    s.begin.handle alg pc ctx = none :=
  State.handle_eq_none.2 (by rwa [State.begin_nCtx])

theorem exec_of_invalid_handle {ctx : Nat} {pa pb pc : Bool} {s : State} (invalid : ¬(pc = true ∧ ctx < s.nCtx alg)) {i : Instr}
    (h : i = .init alg ctx pc ∨ i = .update alg ctx pa pc ∨ i = .final alg ctx pb pc) :
    exec i s = .next (s.begin.complete .nullContext) := by
  obtain rfl | rfl | rfl := h
  · rw [exec_init, initCommand, handle_none invalid]
  · rw [exec_update, updateCommand, handle_none invalid]
  · rw [exec_final, finalCommand, handle_none invalid]

theorem begin_complete_frame (s : State) (code : StatusCode) : Frame s (s.begin.complete code) :=
  (Frame.refl s).begin.complete code

theorem begin_complete_sameSlots (s : State) (code : StatusCode) : SameSlots s (s.begin.complete code) := ⟨rfl, rfl⟩

theorem begin_complete_sameHidden (s : State) (code : StatusCode) : SameHidden s (s.begin.complete code) := ⟨by simp, by simp⟩

/-- Settles O10: the handle is the first check of all three commands. -/
theorem invalidHandleCompletesWithNullContext : Obligations.InvalidHandleCompletesWithNullContext := by
  intro alg ctx pa pb pc s invalid i h
  have frame := begin_complete_frame s .nullContext
  exact ⟨_, exec_of_invalid_handle invalid h, .complete .., begin_complete_sameSlots .., frame.registers, frame.faultRecord,
    frame.eq, fun _ => rfl, begin_complete_sameHidden .., frame.platform⟩

/-! ## The paths of UPDATE (R144) -/

/-- What an UPDATE past its checks leaves: its slot has absorbed `d`, and its datapath is clear. -/
def updated (alg : Alg) (ctx : Nat) (c : Context alg) (d : List Byte) (s : State) : State :=
  (((s.begin.afterFetch s.opA s.opLen).setSlot alg ctx (c.append d)).clearDatapath alg).complete .ok

section
variable {ctx : Nat} {c : Context alg} {s : State} (slot : (s.slots alg)[ctx]? = some c)
include slot

theorem updateCommand_nullData (data : 0 < s.opLen) :
    updateCommand alg ctx false true s = s.begin.complete .nullData := by
  rw [updateCommand_of_slot slot, updateSlot, if_pos ⟨rfl, data⟩]

theorem updateCommand_dead {pa : Bool} (present : pa = true ∨ s.opLen = 0) (dead : c.live = false) :
    updateCommand alg ctx pa true s = s.begin.raiseFault .contractViolation := by
  rw [updateCommand_of_slot slot, updateSlot, if_neg ?_, if_pos dead]
  rintro ⟨absent, data⟩
  obtain present | empty := present
  · cases absent.symm.trans present
  · exact data.ne' empty

theorem updateCommand_empty (live : c.live = true) (empty : s.opLen = 0) (pa : Bool) :
    updateCommand alg ctx pa true s = (s.begin.setSlot alg ctx { c with life := .accum }).complete .ok := by
  rw [updateCommand_of_slot slot, updateSlot, State.begin_opLen, if_neg fun h => h.2.ne' empty, if_neg (by simp [live]),
    if_pos empty]

/-- With data for a Live slot, the checks that are left are the counter's and the range's. -/
theorem updateCommand_data (live : c.live = true) (data : 0 < s.opLen) :
    updateCommand alg ctx true true s =
      if counterFits alg c.bitCount.toNat s.opLen = false then (s.begin.setSlot alg ctx c.wipe).complete .counterOverflow
      else if s.inRange s.opA s.opLen = false then s.begin.raiseFault .busError
      else updated alg ctx c (s.fetched s.opA s.opLen) s := by
  rw [updateCommand_of_slot slot, updateSlot, State.begin_opLen, if_neg (by simp), if_neg (by simp [live]), if_neg data.ne']
  rfl

theorem updateCommand_overflow (live : c.live = true) (data : 0 < s.opLen)
    (overflow : 2 ^ alg.counterWidth - 1 < c.bitCount.toNat + 8 * s.opLen) :
    updateCommand alg ctx true true s = (s.begin.setSlot alg ctx c.wipe).complete .counterOverflow := by
  rw [updateCommand_data slot live data, if_pos (counterFits_eq_false.2 overflow)]

section
variable (live : c.live = true) (data : 0 < s.opLen) (fits : c.bitCount.toNat + 8 * s.opLen ≤ 2 ^ alg.counterWidth - 1)
include live data fits

theorem updateCommand_outside (outside : s.memSize < s.opA + s.opLen) :
    updateCommand alg ctx true true s = s.begin.raiseFault .busError := by
  rw [updateCommand_data slot live data, counterFits_eq_true.2 fits, if_neg (by decide),
    if_pos (State.inRange_eq_false.2 ⟨data.ne', outside⟩)]

theorem updateCommand_ok (inside : s.opA + s.opLen ≤ s.memSize) :
    updateCommand alg ctx true true s = updated alg ctx c (s.fetched s.opA s.opLen) s := by
  rw [updateCommand_data slot live data, counterFits_eq_true.2 fits, if_neg (by decide),
    State.inRange_eq_true.2 (.inr inside), if_neg (by decide)]

end

theorem updated_getElem? (d : List Byte) : ((updated alg ctx c d s).slots alg)[ctx]? = some (c.append d) := by
  rw [updated, State.complete_slots, State.clearDatapath_slots,
    State.setSlot_getElem?_self (by rw [State.afterFetch_nCtx, State.begin_nCtx]; exact State.nCtx_of_getElem? slot)]

end

section
variable (ctx : Nat) (c : Context alg) (d : List Byte) (s : State)

theorem updated_onlySlot : OnlySlot alg ctx s (updated alg ctx c d s) :=
  (begin_setSlot_onlySlot s ctx (c.append d)).of_slots fun alg' => by cases alg <;> cases alg' <;> rfl

theorem updated_frame : Frame s (updated alg ctx c d s) :=
  ((((Frame.refl s).begin.afterFetch _ _).setSlot _ _).clearDatapath _).complete _

theorem updated_sameMemory : SameMemory s (updated alg ctx c d s) := fun _ => by simp [updated]

theorem updated_onlyDatapathCleared : OnlyDatapathCleared alg s (updated alg ctx c d s) :=
  ⟨by simp [updated], by simp [updated], fun alg' other => by simp [updated, State.clearDatapath_datapath_other _ other]⟩

end

/-- The counter of a context that has absorbed what `CounterFits` allows (R142). -/
theorem Context.append_bitCount_toNat_of_le (c : Context alg) {d : List Byte} {n : Nat} (length : d.length = n)
    (fits : c.bitCount.toNat + 8 * n ≤ 2 ^ alg.counterWidth - 1) :
    (c.append d).bitCount.toNat = c.bitCount.toNat + 8 * n :=
  length ▸ c.append_bitCount_toNat d (counterFits_eq_true.2 (length ▸ fits))

/-- UPDATE absorbs as R140's block form says. -/
theorem Context.append_absorbed_eq (c : Context alg) (d : List Byte) : (c.append d).absorbed = c.absorbByBlocks d :=
  (c.append_absorbed d).trans (c.absorb_eq_absorbByBlocks d)

/-- Settles O11: past the checks the slot absorbs the bytes at `A` as they stand. -/
theorem updateAppendsTheDataBytes : Obligations.UpdateAppendsTheDataBytes := by
  intro alg ctx c s slot live data fits inside unraced
  have frame := updated_frame ctx c (s.fetched s.opA s.opLen) s
  have absorbed := c.append_absorbed_eq (s.fetched s.opA s.opLen)
  rw [← State.fetched_eq_bytesAt unraced]
  exact ⟨_, _, (exec_update ..).trans (congrArg _ (updateCommand_ok slot live data fits inside)), updated_getElem? slot _,
    c.append_bitCount_toNat_of_le (s.fetched_length ..) fits, rfl, congrArg Absorbed.H absorbed,
    congrArg Absorbed.pending absorbed, updated_onlySlot .., .complete .., frame.registers, frame.faultRecord, frame.eq,
    updated_sameMemory _ _ _ _, updated_onlyDatapathCleared .., frame.platform⟩

/-- Settles O12: with LEN = 0 the counter and the range are not checked. -/
theorem zeroLengthUpdateOnlyMovesLife : Obligations.ZeroLengthUpdateOnlyMovesLife := by
  intro alg ctx pa c s slot live empty
  have frame := setSlot_complete_frame s ctx { c with life := .accum } .ok
  exact ⟨_, (exec_update ..).trans (congrArg _ (updateCommand_empty slot live empty pa)),
    setSlot_complete_getElem? (State.nCtx_of_getElem? slot) _ _, setSlot_complete_onlySlot .., .complete .., frame.registers,
    frame.faultRecord, frame.eq, setSlot_complete_sameMemory _ _ _ _, setSlot_complete_sameHidden .., frame.platform⟩

/-- Settles O13: the presence of data is checked before anything else about the slot. -/
theorem updateWithoutDataLeavesTheSlot : Obligations.UpdateWithoutDataLeavesTheSlot := by
  intro alg ctx s valid data
  obtain ⟨c, slot⟩ := State.getElem?_of_valid valid
  have frame := begin_complete_frame s .nullData
  exact ⟨_, (exec_update ..).trans (congrArg _ (updateCommand_nullData slot data)), .complete .., begin_complete_sameSlots ..,
    frame.registers, frame.faultRecord, frame.eq, fun _ => rfl, begin_complete_sameHidden .., frame.platform⟩

/-- Settles O15: the counter is checked before the range. -/
theorem counterOverflowWipesTheSlot : Obligations.CounterOverflowWipesTheSlot := by
  intro alg ctx c s slot live data overflow
  have frame := setSlot_complete_frame s ctx c.wipe .counterOverflow
  exact ⟨_, _, (exec_update ..).trans (congrArg _ (updateCommand_overflow slot live data overflow)),
    setSlot_complete_getElem? (State.nCtx_of_getElem? slot) _ _, c.wipe_wiped, setSlot_complete_onlySlot .., .complete ..,
    frame.registers, frame.faultRecord, frame.eq, setSlot_complete_sameMemory _ _ _ _, setSlot_complete_sameHidden ..,
    frame.platform⟩

/-! ## The paths of FINAL (R145) -/

/-- What a FINAL past its checks leaves: its slot is wiped, its datapath is clear, and the digest is stored. -/
def finalized (alg : Alg) (ctx : Nat) (c : Context alg) (s : State) : State :=
  (((s.begin.setSlot alg ctx c.wipe).clearDatapath alg).store s.opB c.finalize).complete .ok

section
variable {ctx : Nat} {c : Context alg} {s : State} (slot : (s.slots alg)[ctx]? = some c)
include slot

theorem finalCommand_nullOutput :
    finalCommand alg ctx false true s = (s.begin.setSlot alg ctx c.wipe).complete .nullOutput := by
  rw [finalCommand_of_slot slot, finalSlot, if_pos rfl]

theorem finalCommand_dead (dead : c.live = false) :
    finalCommand alg ctx true true s = s.begin.raiseFault .contractViolation := by
  rw [finalCommand_of_slot slot, finalSlot, if_neg (by decide), if_pos dead]

theorem finalCommand_outside (live : c.live = true) (outside : s.memSize < s.opB + alg.digestSize) :
    finalCommand alg ctx true true s = s.begin.raiseFault .busError := by
  rw [finalCommand_of_slot slot, finalSlot, State.begin_opB, State.begin_inRange, if_neg (by decide), if_neg (by simp [live]),
    if_pos (State.inRange_eq_false.2 ⟨digestSize_ne_zero alg, outside⟩)]

theorem finalCommand_ok (live : c.live = true) (inside : s.opB + alg.digestSize ≤ s.memSize) :
    finalCommand alg ctx true true s = finalized alg ctx c s := by
  rw [finalCommand_of_slot slot, finalSlot, State.begin_opB, State.begin_inRange, if_neg (by decide), if_neg (by simp [live]),
    State.inRange_eq_true.2 (.inr inside), if_neg (by decide)]
  rfl

theorem finalized_getElem? : ((finalized alg ctx c s).slots alg)[ctx]? = some c.wipe := by
  rw [finalized, State.complete_slots, State.store_slots, State.clearDatapath_slots,
    State.setSlot_getElem?_self (by rw [State.begin_nCtx]; exact State.nCtx_of_getElem? slot)]

end

section
variable (ctx : Nat) (c : Context alg) (s : State)

theorem finalized_onlySlot : OnlySlot alg ctx s (finalized alg ctx c s) :=
  (begin_setSlot_onlySlot s ctx c.wipe).of_slots fun alg' => by cases alg <;> cases alg' <;> rfl

theorem finalized_frame : Frame s (finalized alg ctx c s) :=
  ((((Frame.refl s).begin.setSlot _ _).clearDatapath _).store _ _).complete _

theorem finalized_onlyDatapathCleared : OnlyDatapathCleared alg s (finalized alg ctx c s) :=
  ⟨by simp [finalized], by simp [finalized], fun alg' other => by simp [finalized, State.clearDatapath_datapath_other _ other]⟩

theorem finalized_mem : (finalized alg ctx c s).mem = (s.store s.opB c.finalize).mem := by simp [finalized]

end

/-- A write of `bs` leaves the bytes outside its range. -/
theorem onlyBytes_of_store {s t : State} {addr n : Nat} {bs : List Byte} (mem : t.mem = (s.store addr bs).mem)
    (length : bs.length = n) : OnlyBytes addr n s t := fun a outside =>
  (congrArg (Memory.read · a) mem).trans (s.store_onlyBytes addr bs a (length ▸ outside))

theorem holdsBytes_of_store {s t : State} {addr : Nat} {bs : List Byte} (mem : t.mem = (s.store addr bs).mem)
    (unraced : s.raced = []) : HoldsBytes t addr bs := fun k hk =>
  (congrArg (Memory.read · (addr + k)) mem).trans (State.store_holdsBytes unraced addr bs k hk)

/-- Settles O16: past the checks the digest is stored at `B`, nothing raced. -/
theorem finalWritesTheDigestAndWipes : Obligations.FinalWritesTheDigestAndWipes := by
  intro alg ctx c s slot live inside unraced
  have frame := finalized_frame ctx c s
  have mem := finalized_mem ctx c s
  exact ⟨_, _, (exec_final ..).trans (congrArg _ (finalCommand_ok slot live inside)), c.finalize_length,
    holdsBytes_of_store mem unraced, onlyBytes_of_store mem c.finalize_length, finalized_getElem? slot, c.wipe_wiped,
    finalized_onlySlot .., .complete .., frame.registers, frame.faultRecord, frame.eq, finalized_onlyDatapathCleared ..,
    frame.platform⟩

/-- Settles O17: the presence of an output is checked before the lifecycle state. -/
theorem finalWithoutOutputWipesTheSlot : Obligations.FinalWithoutOutputWipesTheSlot := by
  intro alg ctx s valid
  obtain ⟨c, slot⟩ := State.getElem?_of_valid valid
  have frame := setSlot_complete_frame s ctx c.wipe .nullOutput
  exact ⟨_, _, (exec_final ..).trans (congrArg _ (finalCommand_nullOutput slot)), setSlot_complete_getElem? valid _ _,
    c.wipe_wiped, setSlot_complete_onlySlot .., .complete .., frame.registers, frame.faultRecord, frame.eq,
    setSlot_complete_sameMemory _ _ _ _, setSlot_complete_sameHidden .., frame.platform⟩

theorem exec_of_dead_slot {ctx : Nat} {pa : Bool} {c : Context alg} {s : State} (slot : (s.slots alg)[ctx]? = some c)
    (dead : c.live = false) {i : Instr}
    (h : (i = .update alg ctx pa true ∧ (pa = true ∨ s.opLen = 0)) ∨ i = .final alg ctx true true) :
    exec i s = .next (s.begin.raiseFault .contractViolation) := by
  obtain ⟨rfl, present⟩ | rfl := h
  · rw [exec_update, updateCommand_dead slot present dead]
  · rw [exec_final, finalCommand_dead slot dead]

/-- Settles O14: both commands check the lifecycle state right after their presence bits. -/
theorem deadSlotIsAContractViolation : Obligations.DeadSlotIsAContractViolation := by
  intro alg ctx pa c s slot dead i h
  have faulted := faulted_begin s .contractViolation
  exact ⟨_, exec_of_dead_slot slot dead h, faulted.ended, faulted.recorded, faulted.slots, faulted.registers, faulted.eq,
    faulted.memory, sameHidden_begin_raiseFault .., faulted.platform⟩

end Sys2Proof.Machine
end

section
/-! The invariant of the machine (`State.Inv`): it holds after reset, O59, and every step keeps it, O60. -/

namespace Sys2Proof.Machine

variable {alg : Alg}

theorem forall_alg {P : Alg → Prop} (sha256 : P .sha256) (sha512 : P .sha512) : ∀ alg, P alg
  | .sha256 => sha256
  | .sha512 => sha512

/-! ## What the invariant says of a context (R36) -/

theorem Context.Inv.of_live {c : Context alg} (live : c.live = true)
    (counts : c.bitCount.toNat % 8 = 0 ∧ c.bufLen.val = c.bitCount.toNat / 8 % alg.blockSize) : c.Inv :=
  ⟨fun _ => counts, fun dead => (Bool.false_ne_true (dead.symm.trans live)).elim⟩

theorem Context.Inv.of_dead {c : Context alg} (dead : c.live = false) (zero : c = { Context.zero alg with life := c.life }) :
    c.Inv :=
  ⟨fun live => (Bool.false_ne_true (dead.symm.trans live)).elim, fun _ => zero⟩

theorem Context.zero_inv (alg : Alg) : (Context.zero alg).Inv := .of_dead rfl rfl

theorem Context.wipe_inv (c : Context alg) : c.wipe.Inv := .of_dead rfl rfl

theorem Context.init_inv (alg : Alg) : (Context.init alg).Inv := by
  refine .of_live rfl ?_
  rw [Context.init_bitCount_toNat, Nat.zero_mod, Nat.zero_div, Nat.zero_mod]
  exact ⟨rfl, rfl⟩

theorem Context.Inv.accum {c : Context alg} (h : c.Inv) (live : c.live = true) :
    ({ c with life := .accum } : Context alg).Inv :=
  .of_live rfl (h.live_counts live)

/-- An UPDATE that `CounterFits` allows keeps the counter and the buffer consistent. -/
theorem Context.Inv.append {c : Context alg} (h : c.Inv) (live : c.live = true) {d : List Byte}
    (fits : counterFits alg c.bitCount.toNat d.length = true) : (c.append d).Inv := by
  obtain ⟨bytes, bufLen⟩ := h.live_counts live
  refine .of_live rfl ?_
  rw [c.append_bitCount_toNat d fits, c.append_bufLen d, bufLen, Nat.mod_add_mod]
  exact ⟨by omega, congrArg (· % alg.blockSize) (by omega)⟩

/-! ## What the invariant says of what is stored -/

/-- The part of the invariant that speaks of buffer memory, the banks and the hidden state, with the parameters. -/
structure State.Stored (s : State) : Prop where
  memory_wf : s.mem.wf
  memory_inside : ∀ x ∈ s.mem, x.1 < s.memSize
  parameters : (Params.mk (s.nCtx .sha256) (s.nCtx .sha512) s.memSize s.regBase).wf
  datapaths_clear : ∀ alg, s.datapath alg = Datapath.zero alg
  scratch_dead : ∀ alg, (s.scratch alg).live = false ∧ (s.scratch alg).Inv
  slots_inv : ∀ alg, ∀ c ∈ s.slots alg, c.Inv

theorem State.Inv.stored {s : State} (h : s.Inv) : s.Stored :=
  ⟨h.memory_wf, h.memory_inside, h.parameters, h.datapaths_clear, h.scratch_dead, h.slots_inv⟩

section
variable {s : State} (h : s.Stored)
include h

theorem State.Stored.begin : s.begin.Stored :=
  ⟨h.memory_wf, h.memory_inside, h.parameters, by simpa using h.datapaths_clear, by simpa using h.scratch_dead,
    by simpa using h.slots_inv⟩

theorem State.Stored.afterFetch (addr n : Nat) : (s.afterFetch addr n).Stored :=
  ⟨h.memory_wf, h.memory_inside, h.parameters, by simpa using h.datapaths_clear, by simpa using h.scratch_dead,
    by simpa using h.slots_inv⟩

theorem State.Stored.setEq (v : Bool) : (s.setEq v).Stored :=
  ⟨h.memory_wf, h.memory_inside, h.parameters, by simpa using h.datapaths_clear, by simpa using h.scratch_dead,
    by simpa using h.slots_inv⟩

theorem State.Stored.recordFault (code : StatusCode) : (s.recordFault code).Stored :=
  ⟨h.memory_wf, h.memory_inside, h.parameters, by simpa using h.datapaths_clear, by simpa using h.scratch_dead,
    by simpa using h.slots_inv⟩

theorem State.Stored.complete (code : StatusCode) : (s.complete code).Stored :=
  ⟨h.memory_wf, h.memory_inside, h.parameters, by simpa using h.datapaths_clear, by simpa using h.scratch_dead,
    by simpa using h.slots_inv⟩

theorem State.Stored.store {addr : Nat} {bs : List Byte} (inside : addr + bs.length ≤ s.memSize) : (s.store addr bs).Stored where
  memory_wf := Memory.writeRaced_wf _ _ _ h.memory_wf _
  memory_inside x hx := (Memory.mem_writeRaced _ _ _ hx).elim (h.memory_inside x) fun range => range.2.trans_le inside
  parameters := h.parameters
  datapaths_clear := by simpa using h.datapaths_clear
  scratch_dead := by simpa using h.scratch_dead
  slots_inv := by simpa using h.slots_inv

theorem State.Stored.setSlot {c : Context alg} (hc : c.Inv) (i : Nat) : (s.setSlot alg i c).Stored where
  memory_wf := by simpa using h.memory_wf
  memory_inside := by simpa using h.memory_inside
  parameters := by simpa using h.parameters
  datapaths_clear := by simpa using h.datapaths_clear
  scratch_dead := by simpa using h.scratch_dead
  slots_inv := by
    intro alg' c' hc'
    by_cases e : alg' = alg
    · subst e
      rw [State.setSlot_slots_self] at hc'
      obtain hc' | rfl := List.mem_or_eq_of_mem_set hc'
      · exact h.slots_inv alg' c' hc'
      · exact hc
    · rw [State.setSlot_slots_other _ e] at hc'
      exact h.slots_inv alg' c' hc'

theorem State.Stored.clearDatapath (alg : Alg) : (s.clearDatapath alg).Stored where
  memory_wf := by simpa using h.memory_wf
  memory_inside := by simpa using h.memory_inside
  parameters := by simpa using h.parameters
  datapaths_clear := s.clearDatapath_datapath h.datapaths_clear alg
  scratch_dead := by simpa using h.scratch_dead
  slots_inv := by simpa using h.slots_inv

theorem State.Stored.wipeScratch (alg : Alg) : (s.wipeScratch alg).Stored where
  memory_wf := by simpa using h.memory_wf
  memory_inside := by simpa using h.memory_inside
  parameters := by simpa using h.parameters
  datapaths_clear := by simpa using h.datapaths_clear
  scratch_dead := by
    intro alg'
    by_cases e : alg' = alg
    · subst e
      rw [State.wipeScratch_scratch_self]
      exact ⟨rfl, Context.wipe_inv _⟩
    · rw [State.wipeScratch_scratch_other _ e]
      exact h.scratch_dead alg'
  slots_inv := by simpa using h.slots_inv

end

/-! ## ONESHOT's scratch context is gone when it ends (R41) -/

/-- ONESHOT's state after its Update step, but for the scratch context: its input is read, if it has one. -/
def oneshotRead (alg : Alg) (s : State) : State :=
  if 0 < s.opLen then (s.begin.afterFetch s.opA s.opLen).clearDatapath alg else s.begin

/-- What the scratch context held does not matter to its wipe. -/
theorem State.wipeScratch_setScratch (s : State) (c : Context alg) : (s.setScratch alg c).wipeScratch alg = s.wipeScratch alg := by
  cases alg <;> rfl

theorem oneshotBegin_wipeScratch (alg : Alg) (s : State) : (oneshotBegin alg s).wipeScratch alg = s.begin.wipeScratch alg :=
  State.wipeScratch_setScratch _ _

theorem oneshotAbsorb_wipeScratch (alg : Alg) (s : State) :
    (oneshotAbsorb alg (oneshotBegin alg s)).wipeScratch alg = (oneshotRead alg s).wipeScratch alg := by
  have len : (oneshotBegin alg s).opLen = s.opLen := by simp [oneshotBegin]
  rw [oneshotAbsorb, State.wipeScratch_setScratch, len, oneshotRead]
  split
  · cases alg <;> rfl
  · exact oneshotBegin_wipeScratch alg s

theorem State.Stored.oneshotRead {s : State} (h : s.Stored) (alg : Alg) : (oneshotRead alg s).Stored := by
  unfold Machine.oneshotRead
  split
  · exact (h.begin.afterFetch _ _).clearDatapath alg
  · exact h.begin

/-! ## Every command keeps it -/

/-- A command ended in `t`, and what it stored meets the invariant. -/
def EndsStored (t : State) : Prop := ∃ u code, State.Stored u ∧ t = u.complete code

theorem State.Stored.endsStored {u : State} (h : u.Stored) (code : StatusCode) : EndsStored (u.complete code) := ⟨u, code, h, rfl⟩

theorem State.Stored.endsStored_fault {u : State} (h : u.Stored) (code : StatusCode) : EndsStored (u.raiseFault code) :=
  ⟨_, code, h.recordFault code, rfl⟩

section
variable {s : State} (h : s.Stored)
include h

theorem State.Stored.slot {ctx : Nat} {c : Context alg} (slot : (s.slots alg)[ctx]? = some c) : c.Inv :=
  h.slots_inv alg c (List.mem_of_getElem? slot)

theorem initCommand_stored (alg : Alg) (ctx : Nat) (pc : Bool) : EndsStored (initCommand alg ctx pc s) := by
  obtain ⟨-, e⟩ | ⟨-, -, e⟩ := initCommand_cases alg ctx pc s <;> rw [e]
  · exact h.begin.endsStored _
  · exact (h.begin.setSlot (Context.init_inv alg) ctx).endsStored _

theorem updateCommand_stored (alg : Alg) (ctx : Nat) (pa pc : Bool) : EndsStored (updateCommand alg ctx pa pc s) := by
  obtain ⟨-, e⟩ | ⟨c, -, slot, path⟩ := updateCommand_cases alg ctx pa pc s
  · exact e ▸ h.begin.endsStored _
  have hc := h.slot slot
  obtain ⟨-, -, e⟩ | ⟨-, -, e⟩ | ⟨live, -, e⟩ | ⟨-, -, -, -, e⟩ | ⟨-, -, -, -, -, e⟩ | ⟨-, live, -, fits, -, e⟩ := path <;> rw [e]
  · exact h.begin.endsStored _
  · exact h.begin.endsStored_fault _
  · exact (h.begin.setSlot (hc.accum live) ctx).endsStored _
  · exact (h.begin.setSlot c.wipe_inv ctx).endsStored _
  · exact h.begin.endsStored_fault _
  · exact (((h.begin.afterFetch _ _).setSlot (hc.append live (by rwa [State.fetched_length])) ctx).clearDatapath alg).endsStored _

theorem finalCommand_stored (alg : Alg) (ctx : Nat) (pb pc : Bool) : EndsStored (finalCommand alg ctx pb pc s) := by
  obtain ⟨-, e⟩ | ⟨c, -, slot, ⟨-, e⟩ | ⟨-, -, e⟩ | ⟨-, -, -, e⟩ | ⟨-, -, inside, e⟩⟩ :=
    finalCommand_cases alg ctx pb pc s <;> rw [e]
  · exact h.begin.endsStored _
  · exact (h.begin.setSlot c.wipe_inv ctx).endsStored _
  · exact h.begin.endsStored_fault _
  · exact h.begin.endsStored_fault _
  · refine (((h.begin.setSlot c.wipe_inv ctx).clearDatapath alg).store ?_).endsStored _
    simpa using (State.inRange_eq_true.1 inside).resolve_left (digestSize_ne_zero alg)

theorem oneshotCommand_stored (alg : Alg) (pa pb : Bool) : EndsStored (oneshotCommand alg pa pb s) := by
  have begun := h.begin.wipeScratch alg
  have read := (h.oneshotRead alg).wipeScratch alg
  rw [← oneshotBegin_wipeScratch] at begun
  rw [← oneshotAbsorb_wipeScratch] at read
  obtain ⟨-, -, e⟩ | ⟨-, -, e⟩ | ⟨-, -, -, e⟩ | ⟨-, -, -, -, e⟩ | ⟨-, -, -, -, inside, e⟩ :=
    oneshotCommand_cases alg pa pb s <;> rw [e]
  · exact begun.endsStored _
  · exact begun.endsStored _
  · exact begun.endsStored_fault _
  · exact read.endsStored _
  · refine ((read.clearDatapath alg).store ?_).endsStored _
    have size : (oneshotRead alg s).memSize = s.memSize := by unfold oneshotRead; split <;> simp
    rw [Context.finalize_length, State.clearDatapath_memSize, oneshotAbsorb_wipeScratch, State.wipeScratch_memSize, size]
    exact (State.inRange_eq_true.1 inside).resolve_left (digestSize_ne_zero alg)

theorem tohexCommand_stored (alg : Alg) (pa pb : Bool) : EndsStored (tohexCommand alg pa pb s) := by
  obtain ⟨-, e⟩ | ⟨-, -, -, e⟩ | ⟨-, -, -, inside, e⟩ := tohexCommand_cases alg pa pb s <;> rw [e]
  · exact h.begin.endsStored _
  · exact h.begin.endsStored_fault _
  · refine ((h.begin.afterFetch _ _).store ?_).endsStored _
    rw [toHex_length, State.fetched_length]
    exact (State.inRange_eq_true.1 inside).resolve_left (by have := digestSize_ne_zero alg; omega)

theorem ctcmpCommand_stored (alg : Alg) (pa pb : Bool) : EndsStored (ctcmpCommand alg pa pb s) := by
  obtain ⟨-, e⟩ | ⟨-, -, -, e⟩ | ⟨-, -, -, -, e⟩ := ctcmpCommand_cases alg pa pb s <;> rw [e]
  · exact (h.begin.setEq _).endsStored _
  · exact h.begin.endsStored_fault _
  · exact (((h.begin.afterFetch _ _).afterFetch _ _).setEq _).endsStored _

theorem exec_stored {i : Instr} {t : State} (run : exec i s = .next t) : EndsStored t := by
  induction i using Instr.byOperation with
  | init alg ctx pc => cases (exec_init ..).symm.trans run; exact initCommand_stored h ..
  | update alg ctx pa pc => cases (exec_update ..).symm.trans run; exact updateCommand_stored h ..
  | final alg ctx pb pc => cases (exec_final ..).symm.trans run; exact finalCommand_stored h ..
  | oneshot alg pa pb => cases (exec_oneshot ..).symm.trans run; exact oneshotCommand_stored h ..
  | tohex alg pa pb => cases (exec_tohex ..).symm.trans run; exact tohexCommand_stored h ..
  | ctcmp alg pa pb => cases (exec_ctcmp ..).symm.trans run; exact ctcmpCommand_stored h ..

end

/-! ## The core's turn keeps the invariant -/

theorem StatusCode.code_le (code : StatusCode) : code.code.toNat ≤ 9 := by cases code <;> decide

theorem commandFaults_range {code : StatusCode} (h : code ∈ commandFaults) :
    6 ≤ code.code.toNat ∧ code.code.toNat ≤ 9 := by
  obtain e | e | e := commandFaults_code h <;> rw [e] <;> decide

/-- FCAUSE agrees with FAULT (R25). -/
def CauseAgrees (s : State) : Prop := if s.fault then 6 ≤ s.fcause.toNat ∧ s.fcause.toNat ≤ 9 else s.fcause = 0

theorem CauseAgrees.of_same {s t : State} (h : CauseAgrees s) (same : SameFaultRecord s t) : CauseAgrees t := by
  rw [CauseAgrees, same.1, same.2]
  exact h

theorem CauseAgrees.of_recorded {s t : State} (h : CauseAgrees s) {code : StatusCode}
    (range : 6 ≤ code.code.toNat ∧ code.code.toNat ≤ 9) (recorded : FaultRecorded s t code) : CauseAgrees t := by
  obtain ⟨fault, fcause⟩ := recorded
  rw [CauseAgrees, fault, fcause]
  rw [CauseAgrees] at h
  cases hs : s.fault with
  | true => simpa [hs] using h
  | false => simpa using range

theorem State.Inv.of_ends {s t : State} (h : s.Inv) (ends : CommandEnds s t) (stored : EndsStored t) : t.Inv := by
  obtain ⟨code, ⟨err, pend⟩, how⟩ := ends
  obtain ⟨u, code', hu, rfl⟩ := stored
  have whole := hu.complete code'
  exact {
    memory_wf := whole.memory_wf
    memory_inside := whole.memory_inside
    parameters := whole.parameters
    err_code := by rw [err]; exact code.code_le
    cause := how.elim (fun ⟨_, same⟩ => CauseAgrees.of_same h.cause same)
      fun ⟨hcode, recorded⟩ => CauseAgrees.of_recorded h.cause (commandFaults_range hcode) recorded
    latched := by simp
    idle_unraced := fun _ => rfl
    raced_wf := by simp
    datapaths_clear := whole.datapaths_clear
    scratch_dead := whole.scratch_dead
    slots_inv := whole.slots_inv }

theorem exec_inv {s t : State} (h : s.Inv) {i : Instr} (run : exec i s = .next t) : t.Inv := by
  obtain ⟨t', run', ends⟩ := exec_ends i s
  cases run'.symm.trans run
  exact h.of_ends ends (exec_stored h.stored run)

theorem coreTurn_inv {s t : State} (h : s.Inv) (turn : coreTurn s = .next t) : t.Inv := by
  unfold coreTurn at turn
  split at turn
  next => cases turn; exact h
  next p hp =>
    split at turn
    next i hi => exact exec_inv h turn
    next e he =>
      cases turn
      exact h.of_ends (.of_raiseFault ⟨rfl, rfl⟩ (by decide)) (h.stored.begin.endsStored_fault _)

/-! ## The host's turns keep it -/

/-- What the host last read, the coming turns and the index of its choices are no part of the invariant. -/
theorem State.Inv.host {s : State} (h : s.Inv) (r : HostRead) (n : Nat) (ts : List Turn) :
    ({ s with hostRead := r, coins := n, schedule := ts } : State).Inv :=
  ⟨h.memory_wf, h.memory_inside, h.parameters, h.err_code, h.cause, h.latched, h.idle_unraced, h.raced_wf,
    forall_alg (h.datapaths_clear .sha256) (h.datapaths_clear .sha512), forall_alg (h.scratch_dead .sha256) (h.scratch_dead .sha512),
    forall_alg (h.slots_inv .sha256) (h.slots_inv .sha512)⟩

theorem State.Inv.busyWrite {s : State} (h : s.Inv) : (s.recordFault .busyWrite).Inv :=
  have stored := h.stored.recordFault .busyWrite
  { memory_wf := stored.memory_wf
    memory_inside := stored.memory_inside
    parameters := stored.parameters
    err_code := h.err_code
    cause := CauseAgrees.of_recorded h.cause (by decide) (code := .busyWrite) ⟨rfl, rfl⟩
    latched := h.latched
    idle_unraced := h.idle_unraced
    raced_wf := h.raced_wf
    datapaths_clear := stored.datapaths_clear
    scratch_dead := stored.scratch_dead
    slots_inv := stored.slots_inv }

/-- A CMD store makes the command pending with what the registers hold (R22). -/
theorem State.Inv.accept {s : State} (h : s.Inv) (v : Word) : (s.accept v).Inv where
  memory_wf := h.memory_wf
  memory_inside := h.memory_inside
  parameters := h.parameters
  err_code := h.err_code
  cause := h.cause
  latched := by rintro p ⟨⟩; rfl
  idle_unraced := fun _ => rfl
  raced_wf := by simp
  datapaths_clear := by simpa using h.datapaths_clear
  scratch_dead := by simpa using h.scratch_dead
  slots_inv := by simpa using h.slots_inv

/-- With nothing pending the argument registers may hold anything. -/
theorem State.Inv.withArgs {s : State} (h : s.Inv) (idle : s.pend = none) (a1 a2 b1 b2 l1 l2 : Word) :
    ({ s with argALo := a1, argAHi := a2, argBLo := b1, argBHi := b2, lenLo := l1, lenHi := l2 } : State).Inv :=
  ⟨h.memory_wf, h.memory_inside, h.parameters, h.err_code, h.cause, by simp [idle], h.idle_unraced, h.raced_wf,
    forall_alg (h.datapaths_clear .sha256) (h.datapaths_clear .sha512), forall_alg (h.scratch_dead .sha256) (h.scratch_dead .sha512),
    forall_alg (h.slots_inv .sha256) (h.slots_inv .sha512)⟩

theorem State.Inv.writeRegIdle {s : State} (h : s.Inv) (idle : s.pend = none) (v : Word) (r : RegName) :
    (s.writeRegIdle v r).Inv := by
  cases r with
  | cmd => exact h.accept v
  | status | result => exact h
  | argALo | argAHi | argBLo | argBHi | lenLo | lenHi => exact h.withArgs idle _ _ _ _ _ _

theorem State.Inv.windowWrite {s : State} (h : s.Inv) (width : AccessWidth) (off : Nat) (v : Word) :
    (s.windowWrite width off v).Inv := by
  obtain e | ⟨-, e⟩ | ⟨idle, r, e⟩ := s.windowWrite_cases width off v <;> rw [e]
  · exact h
  · exact h.busyWrite
  · refine h.writeRegIdle ?_ v r
    simpa [State.busy] using idle

/-- A byte the host stores lies in buffer memory, and is raced if a command is pending. -/
theorem State.Inv.hostStoreByte {s : State} (h : s.Inv) {a : Nat} (inside : a < s.memSize) (b : Byte) :
    (s.hostStoreByte a b).Inv where
  memory_wf := Memory.write_wf h.memory_wf a b
  memory_inside := by
    intro x hx
    obtain rfl | hx := Memory.mem_write hx
    · exact inside
    · exact h.memory_inside x hx
  parameters := h.parameters
  err_code := h.err_code
  cause := h.cause
  latched := h.latched
  idle_unraced := by
    intro (idle : s.pend = none)
    simp [State.hostStoreByte, State.busy, idle, h.idle_unraced idle]
  raced_wf := by
    obtain ⟨once, exist⟩ := h.raced_wf
    unfold State.hostStoreByte
    split
    next new => exact ⟨List.nodup_cons.2 ⟨new.2, once⟩, List.forall_mem_cons.2 ⟨inside, exist⟩⟩
    next => exact h.raced_wf
  datapaths_clear := forall_alg (h.datapaths_clear .sha256) (h.datapaths_clear .sha512)
  scratch_dead := forall_alg (h.scratch_dead .sha256) (h.scratch_dead .sha512)
  slots_inv := forall_alg (h.slots_inv .sha256) (h.slots_inv .sha512)

theorem State.Inv.hostLoadByte {s : State} (h : s.Inv) (a : Nat) : (s.hostLoadByte a).Inv := by
  unfold State.hostLoadByte
  split <;> exact h.host _ _ _

theorem hostTurn_inv {act : HostAction} {s t : State} (h : s.Inv) (turn : hostTurn act s = .next t) : t.Inv := by
  unfold hostTurn at turn
  cases act with
  | storeReg width addr v =>
    dsimp only at turn
    split at turn <;> cases turn
    exact h.windowWrite width _ v
  | loadReg width addr =>
    dsimp only at turn
    split at turn <;> cases turn
    exact h.host _ _ _
  | poll =>
    cases turn
    exact h.host _ _ _
  | storeByte a b =>
    dsimp only at turn
    split at turn <;> cases turn
    exact h.hostStoreByte ‹_› b
  | loadByte a =>
    dsimp only at turn
    split at turn <;> cases turn
    exact h.hostLoadByte a

/-! ## Reset -/

theorem State.resetWith_slots (p : Params) (alg : Alg) : ∀ c ∈ (State.resetWith p).slots alg, c = Context.zero alg := by
  cases alg <;> exact fun c hc => List.eq_of_mem_replicate hc

theorem State.resetWith_scratch (p : Params) (alg : Alg) : (State.resetWith p).scratch alg = Context.zero alg := by
  cases alg <;> rfl

theorem State.resetWith_datapath (p : Params) (alg : Alg) : (State.resetWith p).datapath alg = Datapath.zero alg := by
  cases alg <;> rfl

/-- Settles O59: everything is zero after power-on. -/
theorem resetMeetsTheInvariant : Obligations.ResetMeetsTheInvariant := fun p wf =>
  { memory_wf := List.Pairwise.nil
    memory_inside := by simp [State.resetWith]
    parameters := by simpa [State.resetWith, State.nCtx, State.slots] using wf
    err_code := Nat.zero_le 9
    cause := rfl
    latched := by simp [State.resetWith]
    idle_unraced := fun _ => rfl
    raced_wf := by simp [State.resetWith]
    datapaths_clear := State.resetWith_datapath p
    scratch_dead := fun alg => by rw [State.resetWith_scratch]; exact ⟨rfl, Context.zero_inv alg⟩
    slots_inv := fun alg c hc => by rw [State.resetWith_slots p alg c hc]; exact Context.zero_inv alg }

/-- The output range that a reset frees lies in buffer memory. -/
theorem State.pendingOutput_inside {s : State} {addr n : Nat} (h : s.pendingOutput = some (addr, n)) (pos : 0 < n) :
    addr + n ≤ s.memSize := by
  unfold State.pendingOutput at h
  split at h
  next => cases h
  next p hp =>
    split at h
    next => cases h
    next i hi =>
      obtain ⟨size, -, e⟩ := Option.map_eq_some_iff.1 h
      cases e
      omega

theorem State.memAfterReset_wf {s : State} (h : s.mem.wf) : s.memAfterReset.wf := by
  unfold State.memAfterReset
  split
  next => exact h
  next => exact Memory.writeBytes_wf _ h _

theorem State.memAfterReset_inside {s : State} (h : ∀ x ∈ s.mem, x.1 < s.memSize) : ∀ x ∈ s.memAfterReset, x.1 < s.memSize := by
  unfold State.memAfterReset
  split
  next => exact h
  next addr n out =>
    intro x hx
    obtain hx | ⟨low, high⟩ := Memory.mem_writeBytes _ hx
    · exact h x hx
    · rw [List.length_map, List.length_range] at high
      have := State.pendingOutput_inside out (by omega)
      omega

theorem State.Inv.applyReset {s : State} (h : s.Inv) : s.applyReset.Inv :=
  have zero := resetMeetsTheInvariant ⟨s.nCtx .sha256, s.nCtx .sha512, s.memSize, s.regBase⟩ h.parameters
  { memory_wf := State.memAfterReset_wf h.memory_wf
    memory_inside := State.memAfterReset_inside h.memory_inside
    parameters := zero.parameters
    err_code := zero.err_code
    cause := zero.cause
    latched := zero.latched
    idle_unraced := zero.idle_unraced
    raced_wf := by simp [State.applyReset, State.resetWith]
    datapaths_clear := fun alg => by cases alg <;> rfl
    scratch_dead := forall_alg (zero.scratch_dead .sha256) (zero.scratch_dead .sha512)
    slots_inv := forall_alg (zero.slots_inv .sha256) (zero.slots_inv .sha512) }

theorem State.Inv.schedule {s : State} (h : s.Inv) (ts : List Turn) : ({ s with schedule := ts } : State).Inv :=
  h.host s.hostRead s.coins ts

/-- Settles O60: each turn keeps the invariant, and the schedule is no part of it. -/
theorem stepKeepsTheInvariant : Obligations.StepKeepsTheInvariant := by
  intro s t h turn
  match hs : s.schedule with
  | [] =>
    rw [CoreNext.step_eq (.inr ⟨hs, rfl⟩)] at turn
    exact coreTurn_inv (h.schedule []) turn
  | .core :: rest =>
    rw [CoreNext.step_eq (.inl hs)] at turn
    exact coreTurn_inv (h.schedule rest) turn
  | .host act :: rest =>
    rw [step_host hs] at turn
    exact hostTurn_inv (h.schedule rest) turn
  | .reset :: rest =>
    rw [step_reset hs] at turn
    cases turn
    exact (h.schedule rest).applyReset

end Sys2Proof.Machine
end

section
/-! ONESHOT, TOHEX and CTCMP, path by path (spec/41_hasher.md R146, spec/43_encoding_utils.md R202 to R205), with BusError (R52) and
the access table (R58): O18 to O25. -/

namespace Sys2Proof.Machine

variable {alg : Alg}

/-! ## ONESHOT (R146) -/

/-- What a ONESHOT past its checks leaves: its input is read, its scratch context is wiped, and the digest is stored. -/
def oneshotDone (alg : Alg) (s : State) : State :=
  ((((oneshotRead alg s).wipeScratch alg).clearDatapath alg).store s.opB (oneshotContext alg s).finalize).complete .ok

/-- The checks of ONESHOT in their order. -/
theorem oneshotCommand_eq (alg : Alg) (pa pb : Bool) (s : State) : oneshotCommand alg pa pb s =
    if pa = false ∧ 0 < s.opLen then (s.begin.wipeScratch alg).complete .nullData
    else if counterFits alg 0 s.opLen = false then (s.begin.wipeScratch alg).complete .counterOverflow
    else if s.inRange s.opA s.opLen = false then (s.begin.wipeScratch alg).raiseFault .busError
    else if pb = true ∧ s.inRange s.opB alg.digestSize = false then (s.begin.wipeScratch alg).raiseFault .busError
    else if pb = false then ((oneshotRead alg s).wipeScratch alg).complete .nullOutput
    else oneshotDone alg s := by
  obtain ⟨absent, data, e⟩ | ⟨present, overflow, e⟩ | ⟨present, fits, range, e⟩ | ⟨present, fits, inA, out, e⟩ |
      ⟨present, fits, inA, out, inB, e⟩ := oneshotCommand_cases alg pa pb s <;>
    rw [e] <;> simp only [oneshotBegin_wipeScratch, oneshotAbsorb_wipeScratch]
  · rw [if_pos ⟨absent, data⟩]
  · rw [if_neg (by grind), if_pos overflow]
  · rw [if_neg (by grind), if_neg (by simp [fits])]
    obtain outA | ⟨inA, out, outB⟩ := range
    · rw [if_pos outA]
    · rw [if_neg (by simp [inA]), if_pos ⟨out, outB⟩]
  · rw [if_neg (by grind), if_neg (by simp [fits]), if_neg (by simp [inA]), if_neg (by simp [out]), if_pos out]
  · rw [if_neg (by grind), if_neg (by simp [fits]), if_neg (by simp [inA]), if_neg (by simp [inB]), if_neg (by simp [out]),
      oneshotDone]

section
variable {pa pb : Bool} {s : State}

theorem oneshotCommand_nullData (data : 0 < s.opLen) (pb : Bool) :
    oneshotCommand alg false pb s = (s.begin.wipeScratch alg).complete .nullData := by
  rw [oneshotCommand_eq, if_pos ⟨rfl, data⟩]

section
variable (present : pa = true ∨ s.opLen = 0)
include present

theorem oneshotCommand_overflow (overflow : 2 ^ alg.counterWidth - 1 < 8 * s.opLen) :
    oneshotCommand alg pa pb s = (s.begin.wipeScratch alg).complete .counterOverflow := by
  rw [oneshotCommand_eq, if_neg (by grind), if_pos (counterFits_eq_false.2 (by omega))]

variable (fits : 8 * s.opLen ≤ 2 ^ alg.counterWidth - 1)
include fits

theorem oneshotCommand_outsideA (data : 0 < s.opLen) (outside : s.memSize < s.opA + s.opLen) :
    oneshotCommand alg pa pb s = (s.begin.wipeScratch alg).raiseFault .busError := by
  rw [oneshotCommand_eq, if_neg (by grind), counterFits_eq_true.2 (by omega), if_neg (by decide),
    if_pos (State.inRange_eq_false.2 ⟨data.ne', outside⟩)]

/-- Whether or not its data range is a BusError too. -/
theorem oneshotCommand_outsideB (outside : s.memSize < s.opB + alg.digestSize) :
    oneshotCommand alg pa true s = (s.begin.wipeScratch alg).raiseFault .busError := by
  rw [oneshotCommand_eq, if_neg (by grind), counterFits_eq_true.2 (by omega), if_neg (by decide),
    if_pos (c := _ ∧ _) ⟨rfl, State.inRange_eq_false.2 ⟨digestSize_ne_zero alg, outside⟩⟩, ite_self]

variable (inside : s.opLen = 0 ∨ s.opA + s.opLen ≤ s.memSize)
include inside

theorem oneshotCommand_nullOutput :
    oneshotCommand alg pa false s = ((oneshotRead alg s).wipeScratch alg).complete .nullOutput := by
  rw [oneshotCommand_eq, if_neg (by grind), counterFits_eq_true.2 (by omega), if_neg (by decide),
    State.inRange_eq_true.2 inside, if_neg (by decide), if_neg (by simp), if_pos rfl]

theorem oneshotCommand_ok (insideB : s.opB + alg.digestSize ≤ s.memSize) :
    oneshotCommand alg pa true s = oneshotDone alg s := by
  rw [oneshotCommand_eq, if_neg (by grind), counterFits_eq_true.2 (by omega), if_neg (by decide),
    State.inRange_eq_true.2 inside, if_neg (by decide), State.inRange_eq_true.2 (.inr insideB), if_neg (by decide),
    if_neg (by decide)]

end
end

/-! ## What ONESHOT leaves unchanged -/

/-- Wiping the scratch context of `alg` in a state whose other hidden state is as before. -/
theorem onlyScratchWiped_of {s u : State} (own : u.datapath alg = Datapath.zero alg ∨ u.datapath alg = s.datapath alg)
    (other : ∀ alg', alg' ≠ alg → u.scratch alg' = s.scratch alg' ∧ u.datapath alg' = s.datapath alg') :
    OnlyScratchWiped alg s (u.wipeScratch alg) := by
  refine ⟨?_, ?_, fun alg' h => ?_⟩
  · rw [State.wipeScratch_scratch_self]
    exact Context.wipe_wiped _
  · rwa [State.wipeScratch_datapath]
  · rw [State.wipeScratch_scratch_other _ h, State.wipeScratch_datapath]
    exact other alg' h

section
variable {s t : State} (h : OnlyScratchWiped alg s t)
include h

theorem OnlyScratchWiped.complete (code : StatusCode) : OnlyScratchWiped alg s (t.complete code) := by
  simpa [OnlyScratchWiped] using h

theorem OnlyScratchWiped.raiseFault (code : StatusCode) : OnlyScratchWiped alg s (t.raiseFault code) := by
  simpa [OnlyScratchWiped] using h

theorem OnlyScratchWiped.store (addr : Nat) (bs : List Byte) : OnlyScratchWiped alg s (t.store addr bs) := by
  simpa [OnlyScratchWiped] using h

theorem OnlyScratchWiped.clearDatapath : OnlyScratchWiped alg s (t.clearDatapath alg) := by
  obtain ⟨wiped, -, other⟩ := h
  refine ⟨by rwa [State.clearDatapath_scratch], .inl (State.clearDatapath_datapath_self ..), fun alg' ne => ?_⟩
  rw [State.clearDatapath_scratch, State.clearDatapath_datapath_other _ ne]
  exact other alg' ne

end

theorem begin_wipeScratch_onlyScratchWiped (alg : Alg) (s : State) : OnlyScratchWiped alg s (s.begin.wipeScratch alg) :=
  onlyScratchWiped_of (.inr (by simp)) (by simp)

theorem oneshotRead_wipeScratch_onlyScratchWiped (alg : Alg) (s : State) :
    OnlyScratchWiped alg s ((oneshotRead alg s).wipeScratch alg) := by
  unfold oneshotRead
  split
  · refine onlyScratchWiped_of (.inl (State.clearDatapath_datapath_self ..)) fun alg' ne => ?_
    rw [State.clearDatapath_scratch, State.clearDatapath_datapath_other _ ne]
    exact ⟨by simp, by simp⟩
  · exact begin_wipeScratch_onlyScratchWiped alg s

theorem oneshotRead_frame (alg : Alg) (s : State) : Frame s (oneshotRead alg s) := by
  unfold oneshotRead
  split
  · exact ((Frame.refl s).begin.afterFetch _ _).clearDatapath _
  · exact (Frame.refl s).begin

theorem sameSlots_of_slots {s t : State} (h : ∀ alg, t.slots alg = s.slots alg) : SameSlots s t := ⟨h .sha256, h .sha512⟩

@[simp] theorem oneshotRead_slots (alg alg' : Alg) (s : State) : (oneshotRead alg s).slots alg' = s.slots alg' := by
  unfold oneshotRead
  split <;> simp

@[simp] theorem oneshotRead_mem (alg : Alg) (s : State) : (oneshotRead alg s).mem = s.mem := by
  unfold oneshotRead
  split <;> simp

@[simp] theorem oneshotRead_raced (alg : Alg) (s : State) : (oneshotRead alg s).raced = s.raced := by
  unfold oneshotRead
  split <;> simp

@[simp] theorem oneshotRead_draws (alg : Alg) (s : State) : (oneshotRead alg s).draws = s.draws := by
  unfold oneshotRead
  split <;> simp

@[simp] theorem oneshotRead_accesses (alg : Alg) (s : State) :
    (oneshotRead alg s).accesses = if s.opLen = 0 then [] else [.read s.opA s.opLen] := by
  unfold oneshotRead
  split
  next data => rw [if_neg data.ne']; simp [State.afterFetch]
  next empty => rw [if_pos (by omega)]; rfl

theorem oneshotDone_mem (alg : Alg) (s : State) :
    (oneshotDone alg s).mem = (s.store s.opB (oneshotContext alg s).finalize).mem := by
  simp [oneshotDone]

theorem oneshotDone_frame (alg : Alg) (s : State) : Frame s (oneshotDone alg s) :=
  ((((oneshotRead_frame alg s).wipeScratch _).clearDatapath _).store _ _).complete _

theorem oneshotDone_onlyScratchWiped (alg : Alg) (s : State) : OnlyScratchWiped alg s (oneshotDone alg s) :=
  ((oneshotRead_wipeScratch_onlyScratchWiped alg s).clearDatapath.store _ _).complete _

theorem oneshotDone_sameSlots (alg : Alg) (s : State) : SameSlots s (oneshotDone alg s) :=
  sameSlots_of_slots fun _ => by simp [oneshotDone]

/-- Settles O18: past the checks the digest of the input is stored at `B`, nothing raced. -/
theorem oneshotWritesTheDigestOfItsInput : Obligations.OneshotWritesTheDigestOfItsInput := by
  intro alg pa s present fits inside insideB unraced
  have frame := oneshotDone_frame alg s
  have mem := oneshotDone_mem alg s
  rw [oneshotContext_finalize] at mem
  rw [← State.fetched_eq_bytesAt unraced]
  exact ⟨_, (exec_oneshot ..).trans (congrArg _ (oneshotCommand_ok present fits inside insideB)),
    holdsBytes_of_store mem unraced, Context.finalize_length _, onlyBytes_of_store mem (Context.finalize_length _),
    oneshotDone_sameSlots .., .complete .., frame.registers, frame.faultRecord, frame.eq, oneshotDone_onlyScratchWiped ..,
    frame.platform⟩

/-- What an error of ONESHOT leaves: nothing but the wiped scratch context, and perhaps a clear datapath. -/
structure OneshotError (alg : Alg) (s t : State) (code : StatusCode) : Prop where
  ended : Ended t code
  scratch : OnlyScratchWiped alg s t
  slots : SameSlots s t
  memory : SameMemory s t
  frame : Frame s t

theorem oneshotError_begin (alg : Alg) (s : State) (code : StatusCode) :
    OneshotError alg s ((s.begin.wipeScratch alg).complete code) code where
  ended := .complete ..
  scratch := (begin_wipeScratch_onlyScratchWiped alg s).complete code
  slots := sameSlots_of_slots fun _ => by simp
  memory _ := by simp
  frame := ((Frame.refl s).begin.wipeScratch alg).complete code

theorem oneshotError_read (alg : Alg) (s : State) (code : StatusCode) :
    OneshotError alg s (((oneshotRead alg s).wipeScratch alg).complete code) code where
  ended := .complete ..
  scratch := (oneshotRead_wipeScratch_onlyScratchWiped alg s).complete code
  slots := sameSlots_of_slots fun _ => by simp
  memory _ := by simp
  frame := ((oneshotRead_frame alg s).wipeScratch alg).complete code

theorem exec_oneshot_error {alg : Alg} {pa pb : Bool} {s : State} {code : StatusCode}
    (h : (pa = false ∧ 0 < s.opLen ∧ code = .nullData) ∨
      (pa = true ∧ alg = .sha256 ∧ 2 ^ 61 ≤ s.opLen ∧ code = .counterOverflow) ∨
      ((pa = true ∨ s.opLen = 0) ∧ pb = false ∧ 8 * s.opLen ≤ 2 ^ alg.counterWidth - 1 ∧
        (s.opLen = 0 ∨ s.opA + s.opLen ≤ s.memSize) ∧ code = .nullOutput)) :
    ∃ t, exec (.oneshot alg pa pb) s = .next t ∧ OneshotError alg s t code := by
  refine ⟨_, exec_oneshot .., ?_⟩
  obtain ⟨rfl, data, rfl⟩ | ⟨rfl, rfl, long, rfl⟩ | ⟨present, rfl, fits, inside, rfl⟩ := h
  · rw [oneshotCommand_nullData data]
    exact oneshotError_begin ..
  · rw [oneshotCommand_overflow (alg := .sha256) (.inl rfl) (show 2 ^ 64 - 1 < 8 * s.opLen by omega)]
    exact oneshotError_begin ..
  · rw [oneshotCommand_nullOutput present fits inside]
    exact oneshotError_read ..

/-- Settles O19: each error wipes the scratch context and completes. -/
theorem oneshotErrorsLeaveNothingBehind : Obligations.OneshotErrorsLeaveNothingBehind := by
  intro alg pa pb s code h
  obtain ⟨t, run, error⟩ := exec_oneshot_error h
  exact ⟨t, run, error.ended, error.scratch, error.slots, error.memory, error.frame.registers, error.frame.faultRecord,
    error.frame.eq, error.frame.platform⟩

/-! ## TOHEX (R202) -/

theorem eq_false_of_absent {pa pb : Bool} (absent : ¬(pa = true ∧ pb = true)) : pa = false ∨ pb = false := by
  rwa [not_and_or, Bool.not_eq_true, Bool.not_eq_true] at absent

/-- What a TOHEX past its checks leaves: the digest's characters are stored. -/
def tohexDone (alg : Alg) (s : State) : State :=
  ((s.begin.afterFetch s.opA alg.digestSize).store s.opB (toHex (s.fetched s.opA alg.digestSize))).complete .ok

section
variable {s : State}

theorem tohexCommand_absent {pa pb : Bool} (absent : ¬(pa = true ∧ pb = true)) :
    tohexCommand alg pa pb s = s.begin.complete .nullInput := by
  rw [tohexCommand, if_pos (eq_false_of_absent absent)]

theorem tohexCommand_outside (outside : s.memSize < s.opA + alg.digestSize ∨ s.memSize < s.opB + 2 * alg.digestSize) :
    tohexCommand alg true true s = s.begin.raiseFault .busError := by
  have nonempty := digestSize_ne_zero alg
  rw [tohexCommand, if_neg (by simp), if_pos]
  exact outside.imp (fun h => State.inRange_eq_false.2 ⟨nonempty, h⟩) fun h => State.inRange_eq_false.2 ⟨by omega, h⟩

theorem tohexCommand_ok (insideA : s.opA + alg.digestSize ≤ s.memSize) (insideB : s.opB + 2 * alg.digestSize ≤ s.memSize) :
    tohexCommand alg true true s = tohexDone alg s := by
  rw [tohexCommand, State.inRange_eq_true.2 (.inr insideA), State.inRange_eq_true.2 (.inr insideB), if_neg (by decide),
    if_neg (by decide)]
  rfl

end

theorem tohexDone_frame (alg : Alg) (s : State) : Frame s (tohexDone alg s) :=
  (((Frame.refl s).begin.afterFetch _ _).store _ _).complete _

theorem tohexDone_sameSlots (alg : Alg) (s : State) : SameSlots s (tohexDone alg s) := ⟨rfl, rfl⟩

theorem tohexDone_sameHidden (alg : Alg) (s : State) : SameHidden s (tohexDone alg s) :=
  ⟨by simp [tohexDone], by simp [tohexDone]⟩

theorem tohexDone_mem (alg : Alg) (s : State) :
    (tohexDone alg s).mem = (s.store s.opB (toHex (s.fetched s.opA alg.digestSize))).mem := rfl

theorem toHex_fetched_length (s : State) (a n : Nat) : (toHex (s.fetched a n)).length = 2 * n := by
  rw [toHex_length, State.fetched_length]

/-- Settles O21: past the checks the characters of the bytes at `A` are stored at `B`, nothing raced. -/
theorem tohexWritesTheCharacters : Obligations.TohexWritesTheCharacters := by
  intro alg s insideA insideB unraced
  have frame := tohexDone_frame alg s
  have mem := tohexDone_mem alg s
  have length := toHex_fetched_length s s.opA alg.digestSize
  rw [← State.fetched_eq_bytesAt unraced]
  exact ⟨_, (exec_tohex ..).trans (congrArg _ (tohexCommand_ok insideA insideB)), holdsBytes_of_store mem unraced, length,
    onlyBytes_of_store mem length, tohexDone_sameSlots .., .complete .., frame.registers, frame.faultRecord, frame.eq,
    tohexDone_sameHidden .., frame.platform⟩

/-! ## CTCMP (R203 to R205) -/

theorem foldl_or_eq_zero {z : Byte} {l : List Byte} : l.foldl (· ||| ·) z = 0#8 ↔ z = 0#8 ∧ ∀ b ∈ l, b = 0#8 := by
  induction l generalizing z with
  | nil => simp
  | cons b l ih => rw [List.foldl_cons, ih, BitVec.or_eq_zero_iff, List.forall_mem_cons, and_assoc]

theorem zipWith_xor_eq_zero {x y : List Byte} (length : x.length = y.length) :
    (∀ b ∈ List.zipWith (· ^^^ ·) x y, b = 0#8) ↔ x = y := by
  induction x generalizing y with
  | nil => simp [List.eq_nil_of_length_eq_zero length.symm]
  | cons a x ih =>
    cases y with
    | nil => cases length
    | cons b y =>
      rw [List.zipWith_cons_cons, List.forall_mem_cons, BitVec.xor_eq_zero_iff, ih (Nat.succ.inj length), List.cons.injEq]

theorem ctAccumulate_eq_zero {x y : List Byte} (length : x.length = y.length) : ctAccumulate x y = 0#8 ↔ x = y := by
  rw [ctAccumulate, BitVec.ofNat_eq_ofNat, foldl_or_eq_zero, zipWith_xor_eq_zero length, and_iff_right rfl]

/-- Settles O25: a running OR is zero exactly when each of its terms is, and `a ⊕ b` is when `a = b`. -/
theorem accumulatorIsZeroExactlyOnEqualBytes : Obligations.AccumulatorIsZeroExactlyOnEqualBytes := by
  intro x y length
  rw [ctEq, beq_iff_eq]
  exact ctAccumulate_eq_zero length

theorem takenAt_eq_iff {f : Nat → Byte} {a b n : Nat} : takenAt f a n = takenAt f b n ↔ ∀ k < n, f (a + k) = f (b + k) := by
  simp [takenAt]

/-- The comparator on two ranges, each byte taken once. -/
theorem ctEq_fetched {s : State} {a b n : Nat} :
    ctEq (s.fetched a n) (s.fetched b n) = true ↔ ∀ k < n, s.inputByte (a + k) = s.inputByte (b + k) := by
  rw [accumulatorIsZeroExactlyOnEqualBytes _ _ (by rw [State.fetched_length, State.fetched_length]), State.fetched_eq_takenAt,
    State.fetched_eq_takenAt, takenAt_eq_iff]

/-- What a CTCMP past its checks leaves: both ranges are read, and EQ is the comparison. -/
def ctcmpDone (alg : Alg) (s : State) : State :=
  (((s.begin.afterFetch s.opA alg.digestSize).afterFetch s.opB alg.digestSize).setEq
    (ctEq (s.fetched s.opA alg.digestSize) (s.fetched s.opB alg.digestSize))).complete .ok

section
variable {s : State}

theorem ctcmpCommand_absent {pa pb : Bool} (absent : ¬(pa = true ∧ pb = true)) :
    ctcmpCommand alg pa pb s = (s.begin.setEq false).complete .nullInput := by
  rw [ctcmpCommand, if_pos (eq_false_of_absent absent)]

theorem ctcmpCommand_outside (outside : s.memSize < s.opA + alg.digestSize ∨ s.memSize < s.opB + alg.digestSize) :
    ctcmpCommand alg true true s = s.begin.raiseFault .busError := by
  have nonempty := digestSize_ne_zero alg
  rw [ctcmpCommand, if_neg (by simp), if_pos]
  exact outside.imp (fun h => State.inRange_eq_false.2 ⟨nonempty, h⟩) fun h => State.inRange_eq_false.2 ⟨nonempty, h⟩

theorem ctcmpCommand_ok (insideA : s.opA + alg.digestSize ≤ s.memSize) (insideB : s.opB + alg.digestSize ≤ s.memSize) :
    ctcmpCommand alg true true s = ctcmpDone alg s := by
  rw [ctcmpCommand, State.inRange_eq_true.2 (.inr insideA), State.inRange_eq_true.2 (.inr insideB), if_neg (by decide),
    if_neg (by decide)]
  rfl

end

theorem State.inputByte_unraced {s : State} (unraced : s.raced = []) (a : Nat) : s.inputByte a = s.mem.read a :=
  s.inputByte_mayTake a (by simp [unraced])

/-- CTCMP sets EQ, which is in no other part of a frame. -/
theorem Frame.setEq_complete {s u : State} (h : Frame s u) (v : Bool) (code : StatusCode) :
    SameRegisters s ((u.setEq v).complete code) ∧ SameFaultRecord s ((u.setEq v).complete code) ∧
      SamePlatform s ((u.setEq v).complete code) :=
  ⟨h.registers, h.faultRecord, h.platform⟩

theorem ctcmpDone_eq_iff (alg : Alg) (s : State) :
    (ctcmpDone alg s).eq = true ↔ ∀ k < alg.digestSize, s.inputByte (s.opA + k) = s.inputByte (s.opB + k) := by
  rw [ctcmpDone, State.complete_eq, State.setEq_eq, ctEq_fetched]

theorem ctcmpDone_sameHidden (alg : Alg) (s : State) : SameHidden s (ctcmpDone alg s) :=
  ⟨by simp [ctcmpDone], by simp [ctcmpDone]⟩

theorem ctcmpDone_sameMemory (alg : Alg) (s : State) : SameMemory s (ctcmpDone alg s) := fun _ => by simp [ctcmpDone]

theorem ctcmpDone_sameSlots (alg : Alg) (s : State) : SameSlots s (ctcmpDone alg s) :=
  sameSlots_of_slots fun _ => by simp [ctcmpDone]

theorem ctcmpDone_kept (alg : Alg) (s : State) :
    SameRegisters s (ctcmpDone alg s) ∧ SameFaultRecord s (ctcmpDone alg s) ∧ SamePlatform s (ctcmpDone alg s) := by
  unfold ctcmpDone
  exact (((Frame.refl s).begin.afterFetch _ _).afterFetch _ _).setEq_complete _ _

/-- Settles O22: past the checks EQ is the accumulator's verdict on the bytes as they stand. -/
theorem ctcmpSetsEqToEquality : Obligations.CtcmpSetsEqToEquality := by
  intro alg s insideA insideB unraced
  obtain ⟨registers, faultRecord, platform⟩ := ctcmpDone_kept alg s
  have verdict := ctcmpDone_eq_iff alg s
  simp only [State.inputByte_unraced unraced] at verdict
  exact ⟨_, (exec_ctcmp ..).trans (congrArg _ (ctcmpCommand_ok insideA insideB)), verdict,
    ctcmpDone_sameSlots alg s, ctcmpDone_sameMemory alg s, .complete .., registers, faultRecord, ctcmpDone_sameHidden alg s, platform⟩

/-- Settles O23: the presence of both operands is the first check of either command. -/
theorem absentInputCompletesWithNullInput : Obligations.AbsentInputCompletesWithNullInput := by
  intro alg pa pb s absent
  have tohex := begin_complete_frame s .nullInput
  obtain ⟨registers, faultRecord, platform⟩ := (Frame.refl s).begin.setEq_complete false .nullInput
  exact ⟨⟨_, (exec_tohex ..).trans (congrArg _ (tohexCommand_absent absent)), .complete .., tohex.eq, rfl,
      begin_complete_sameSlots .., fun _ => rfl, tohex.registers, tohex.faultRecord, begin_complete_sameHidden ..,
      tohex.platform⟩,
    ⟨_, (exec_ctcmp ..).trans (congrArg _ (ctcmpCommand_absent absent)), .complete .., rfl, rfl, ⟨rfl, rfl⟩, fun _ => rfl,
      registers, faultRecord, ⟨by simp, by simp⟩, platform⟩⟩

/-! ## A range outside buffer memory (R52) -/

theorem faulted_wipeScratch (alg : Alg) (s : State) : Faulted s ((s.begin.wipeScratch alg).raiseFault .busError) .busError := by
  have frame := (Frame.refl s).begin.wipeScratch alg
  obtain ⟨fault, fcause⟩ := frame.faultRecord
  exact ⟨⟨rfl, rfl⟩, ⟨rfl, by rw [State.raiseFault_fcause, fault, fcause]⟩, sameSlots_of_slots fun _ => by simp, fun _ => by simp,
    frame.registers, frame.eq, frame.platform, by simp⟩

/-- What a BusError leaves of the hidden state: ONESHOT wipes its scratch context, and no other command changes any. -/
theorem exec_of_outside {alg : Alg} {ctx : Nat} {pa pb : Bool} {c : Context alg} {s : State} {i : Instr}
    (h : (i = .update alg ctx true true ∧ (s.slots alg)[ctx]? = some c ∧ c.live = true ∧ 0 < s.opLen ∧
        c.bitCount.toNat + 8 * s.opLen ≤ 2 ^ alg.counterWidth - 1 ∧ s.memSize < s.opA + s.opLen) ∨
      (i = .final alg ctx true true ∧ (s.slots alg)[ctx]? = some c ∧ c.live = true ∧ s.memSize < s.opB + alg.digestSize) ∨
      (i = .oneshot alg pa pb ∧ (pa = true ∨ s.opLen = 0) ∧ 8 * s.opLen ≤ 2 ^ alg.counterWidth - 1 ∧
        ((0 < s.opLen ∧ s.memSize < s.opA + s.opLen) ∨ (pb = true ∧ s.memSize < s.opB + alg.digestSize))) ∨
      (i = .tohex alg true true ∧ (s.memSize < s.opA + alg.digestSize ∨ s.memSize < s.opB + 2 * alg.digestSize)) ∨
      (i = .ctcmp alg true true ∧ (s.memSize < s.opA + alg.digestSize ∨ s.memSize < s.opB + alg.digestSize))) :
    (i = .oneshot alg pa pb ∧ exec i s = .next ((s.begin.wipeScratch alg).raiseFault .busError)) ∨
      (i ≠ .oneshot alg pa pb ∧ exec i s = .next (s.begin.raiseFault .busError)) := by
  obtain ⟨rfl, slot, live, data, fits, outside⟩ | ⟨rfl, slot, live, outside⟩ | ⟨rfl, present, fits, outside⟩ | ⟨rfl, outside⟩ |
    ⟨rfl, outside⟩ := h
  · exact .inr ⟨by cases alg <;> nofun, by rw [exec_update, updateCommand_outside slot live data fits outside]⟩
  · exact .inr ⟨by cases alg <;> nofun, by rw [exec_final, finalCommand_outside slot live outside]⟩
  · refine .inl ⟨rfl, ?_⟩
    rw [exec_oneshot]
    obtain ⟨data, outside⟩ | ⟨rfl, outside⟩ := outside
    · rw [oneshotCommand_outsideA present fits data outside]
    · rw [oneshotCommand_outsideB present fits outside]
  · exact .inr ⟨by cases alg <;> nofun, by rw [exec_tohex, tohexCommand_outside outside]⟩
  · exact .inr ⟨by cases alg <;> nofun, by rw [exec_ctcmp, ctcmpCommand_outside outside]⟩

/-- Settles O20: the range check raises the fault in a state that has read and written nothing. -/
theorem rangeOutsideMemoryIsABusError : Obligations.RangeOutsideMemoryIsABusError := by
  intro alg ctx pa pb c s i h
  obtain ⟨oneshot, run⟩ | ⟨other, run⟩ := exec_of_outside h
  · have faulted := faulted_wipeScratch alg s
    exact ⟨_, run, faulted.ended, faulted.recorded, faulted.accesses, faulted.slots, faulted.memory, faulted.registers,
      faulted.eq, faulted.platform, fun _ => (begin_wipeScratch_onlyScratchWiped alg s).raiseFault _, absurd oneshot⟩
  · have faulted := faulted_begin s .busError
    exact ⟨_, run, faulted.ended, faulted.recorded, faulted.accesses, faulted.slots, faulted.memory, faulted.registers,
      faulted.eq, faulted.platform, fun oneshot => absurd oneshot other, fun _ => sameHidden_begin_raiseFault ..⟩

/-! ## The access table (R58, R205) -/

theorem StatusCode.eq_ok {code : StatusCode} (h : code.code = 0) : code = .ok := by
  revert h
  cases code <;> decide

/-- A state with these accesses in which a command completes. -/
theorem complete_accesses_of_ok {u t : State} {code : StatusCode} {l : List Access} (e : t = u.complete code) (ok : t.err = 0)
    (accesses : code = .ok → u.accesses = l) : t.accesses = l := by
  subst e
  exact accesses (StatusCode.eq_ok ok)

theorem initCommand_accesses {ctx : Nat} {pc : Bool} {s : State} (ok : (initCommand alg ctx pc s).err = 0) :
    (initCommand alg ctx pc s).accesses = [] := by
  obtain ⟨-, e⟩ | ⟨-, -, e⟩ := initCommand_cases alg ctx pc s
  · exact complete_accesses_of_ok e ok nofun
  · exact complete_accesses_of_ok e ok fun _ => by simp

/-- The read of a data operand: none when LEN = 0. -/
def dataRead (s : State) : List Access := if s.opLen = 0 then [] else [.read s.opA s.opLen]

theorem updateCommand_accesses {ctx : Nat} {pa pc : Bool} {s : State} (ok : (updateCommand alg ctx pa pc s).err = 0) :
    (updateCommand alg ctx pa pc s).accesses = dataRead s := by
  obtain ⟨-, e⟩ | ⟨c, -, -, path⟩ := updateCommand_cases alg ctx pa pc s
  · exact complete_accesses_of_ok e ok nofun
  obtain ⟨-, -, e⟩ | ⟨-, -, e⟩ | ⟨-, empty, e⟩ | ⟨-, -, -, -, e⟩ | ⟨-, -, -, -, -, e⟩ | ⟨-, -, data, -, -, e⟩ := path
  · exact complete_accesses_of_ok e ok nofun
  · exact complete_accesses_of_ok e ok nofun
  · exact complete_accesses_of_ok e ok fun _ => by simp [dataRead, empty]
  · exact complete_accesses_of_ok e ok nofun
  · exact complete_accesses_of_ok e ok nofun
  · exact complete_accesses_of_ok e ok fun _ => by simp [dataRead, data.ne']

theorem finalCommand_accesses {ctx : Nat} {pb pc : Bool} {s : State} (ok : (finalCommand alg ctx pb pc s).err = 0) :
    (finalCommand alg ctx pb pc s).accesses = [.write s.opB alg.digestSize] := by
  obtain ⟨-, e⟩ | ⟨c, -, -, ⟨-, e⟩ | ⟨-, -, e⟩ | ⟨-, -, -, e⟩ | ⟨-, -, -, e⟩⟩ := finalCommand_cases alg ctx pb pc s
  · exact complete_accesses_of_ok e ok nofun
  · exact complete_accesses_of_ok e ok nofun
  · exact complete_accesses_of_ok e ok nofun
  · exact complete_accesses_of_ok e ok nofun
  · exact complete_accesses_of_ok e ok fun _ => by simp

theorem oneshotCommand_accesses {pa pb : Bool} {s : State} (ok : (oneshotCommand alg pa pb s).err = 0) :
    (oneshotCommand alg pa pb s).accesses = dataRead s ++ [.write s.opB alg.digestSize] := by
  obtain ⟨-, -, e⟩ | ⟨-, -, e⟩ | ⟨-, -, -, e⟩ | ⟨-, -, -, -, e⟩ | ⟨-, -, -, -, -, e⟩ := oneshotCommand_cases alg pa pb s
  · exact complete_accesses_of_ok e ok nofun
  · exact complete_accesses_of_ok e ok nofun
  · exact complete_accesses_of_ok e ok nofun
  · exact complete_accesses_of_ok e ok nofun
  · rw [oneshotAbsorb_wipeScratch] at e
    exact complete_accesses_of_ok e ok fun _ => by simp [dataRead]

theorem tohexCommand_accesses {pa pb : Bool} {s : State} (ok : (tohexCommand alg pa pb s).err = 0) :
    (tohexCommand alg pa pb s).accesses = [.read s.opA alg.digestSize, .write s.opB (2 * alg.digestSize)] := by
  obtain ⟨-, e⟩ | ⟨-, -, -, e⟩ | ⟨-, -, -, -, e⟩ := tohexCommand_cases alg pa pb s
  · exact complete_accesses_of_ok e ok nofun
  · exact complete_accesses_of_ok e ok nofun
  · exact complete_accesses_of_ok e ok fun _ => by simp [State.afterFetch]

theorem ctcmpCommand_accesses {pa pb : Bool} {s : State} (ok : (ctcmpCommand alg pa pb s).err = 0) :
    (ctcmpCommand alg pa pb s).accesses = [.read s.opA alg.digestSize, .read s.opB alg.digestSize] := by
  obtain ⟨-, e⟩ | ⟨-, -, -, e⟩ | ⟨-, -, -, -, e⟩ := ctcmpCommand_cases alg pa pb s
  · exact complete_accesses_of_ok e ok nofun
  · exact complete_accesses_of_ok e ok nofun
  · exact complete_accesses_of_ok e ok fun _ => by simp [State.afterFetch]

/-- Settles O24: the one path of each operation that ends with OK makes the accesses of its row. -/
theorem commandsAccessExactlyTheirRanges : Obligations.CommandsAccessExactlyTheirRanges := by
  intro i s t run ok
  cases i with
  | init256 ctx pc | init512 ctx pc => cases run; exact initCommand_accesses ok
  | update256 ctx pa pc | update512 ctx pa pc => cases run; exact updateCommand_accesses ok
  | final256 ctx pb pc | final512 ctx pb pc => cases run; exact finalCommand_accesses ok
  | oneshot256 pa pb | oneshot512 pa pb => cases run; exact oneshotCommand_accesses ok
  | tohex256 pa pb | tohex512 pa pb => cases run; exact tohexCommand_accesses ok
  | ctcmp256 pa pb | ctcmp512 pa pb => cases run; exact ctcmpCommand_accesses ok

end Sys2Proof.Machine
end

section
/-! Commands whose buffers the host raced (spec/70_reset_and_hazards.md R257, R258), O53 and O54; the core's turn, O6 to O8; and
what a command can do to the slots, O37 and O42. -/

namespace Sys2Proof.Machine

variable {alg : Alg}

/-! ## Raced inputs and outputs -/

/-- Settles O53: what a command takes each byte as is `State.inputByte`, raced or not. -/
theorem racedInputIsTakenAsSomeBytes : Obligations.RacedInputIsTakenAsSomeBytes := by
  refine ⟨fun alg ctx c s slot live data fits inside => ?update, fun alg s insideA insideB => ?ctcmp⟩
  case update =>
    have absorbed := c.append_absorbed_eq (s.fetched s.opA s.opLen)
    exact ⟨_, s.inputByte, _, (exec_update ..).trans (congrArg _ (updateCommand_ok slot live data fits inside)),
      s.inputByte_mayTake, updated_getElem? slot _, congrArg Absorbed.H absorbed, congrArg Absorbed.pending absorbed,
      c.append_bitCount_toNat_of_le (s.fetched_length ..) fits, rfl, .complete .., updated_sameMemory _ _ _ _⟩
  case ctcmp =>
    have verdict := ctcmpDone_eq_iff alg s
    exact ⟨_, s.inputByte, (exec_ctcmp ..).trans (congrArg _ (ctcmpCommand_ok insideA insideB)), s.inputByte_mayTake, verdict,
      fun same => verdict.2 fun k _ => by rw [same], .complete .., ctcmpDone_sameMemory alg s⟩

theorem endsAs_of_store {s t : State} {addr : Nat} {bs : List Byte} (mem : t.mem = (s.store addr bs).mem) :
    EndsAs s t addr bs := by
  intro k hk
  rw [mem]
  exact s.store_endsAs addr bs k hk

/-- Settles O54: past their checks all three commands end with one write of their output. -/
theorem racedOutputEndsAsEitherValue : Obligations.RacedOutputEndsAsEitherValue := by
  refine ⟨fun alg ctx c s slot live inside => ?final, fun alg s fits insideA insideB => ?oneshot,
    fun alg s insideA insideB => ?tohex⟩
  case final =>
    have mem := finalized_mem ctx c s
    exact ⟨_, (exec_final ..).trans (congrArg _ (finalCommand_ok slot live inside)), endsAs_of_store mem,
      onlyBytes_of_store mem c.finalize_length, .complete ..⟩
  case oneshot =>
    have mem := oneshotDone_mem alg s
    rw [oneshotContext_finalize] at mem
    exact ⟨_, s.inputByte, (exec_oneshot ..).trans (congrArg _ (oneshotCommand_ok (.inl rfl) fits (.inr insideA) insideB)),
      s.inputByte_mayTake, endsAs_of_store mem, onlyBytes_of_store mem (Context.finalize_length _), .complete ..⟩
  case tohex =>
    have mem := tohexDone_mem alg s
    exact ⟨_, s.inputByte, (exec_tohex ..).trans (congrArg _ (tohexCommand_ok insideA insideB)), s.inputByte_mayTake,
      endsAs_of_store mem, onlyBytes_of_store mem (toHex_fetched_length ..), .complete ..⟩

/-! ## The core's turn (R80, R81) -/

theorem coreTurn_of_decode {s : State} {p : Latch} {i : Instr} (pending : s.pend = some p) (h : decode p.word = .ok i) :
    coreTurn s = exec i s := by
  simp only [coreTurn, pending, h]

theorem coreTurn_of_illegal {s : State} {p : Latch} {e : Illegal} (pending : s.pend = some p) (h : decode p.word = .error e) :
    coreTurn s = .next (s.begin.raiseFault .illegalCommand) := by
  simp only [coreTurn, pending, h]

/-- A step at a turn of the core finds the state with that turn taken off. -/
theorem step_withFetchWord (s : State) {w : Nat} (h : w < 2 ^ 32) :
    step (s.withFetchWord 32 w) = coreTurn (s.accept (BitVec.ofNat 32 w)) := by
  rw [CoreNext.step_eq (rest := s.schedule) (.inl rfl), State.withFetchWord, Nat.mod_eq_of_lt h]
  rfl

/-- Settles O6: the core's turn executes what the pending word decodes to. -/
theorem stepRunsTheDecodedCommand : Obligations.StepRunsTheDecodedCommand := by
  refine ⟨fun s p i rest pending hi => ⟨fun hs => ?_, fun hs => ?_⟩, fun s i w hw hi => ?_⟩
  · rw [CoreNext.step_eq (.inl hs)]
    exact coreTurn_of_decode pending hi
  · simp only [step, hs]
    exact coreTurn_of_decode pending hi
  · rw [step_withFetchWord s hw]
    exact coreTurn_of_decode (State.accept_pend ..) hi

/-- The schedule is no part of the hidden state. -/
theorem SameHidden.of_schedule {s t : State} {ts : List Turn} (h : SameHidden { s with schedule := ts } t) : SameHidden s t :=
  ⟨forall_alg (h.1 .sha256) (h.1 .sha512), forall_alg (h.2 .sha256) (h.2 .sha512)⟩

/-- Settles O7: the core raises the fault before it reads any operand. -/
theorem illegalWordCompletesWithIllegalCommand : Obligations.IllegalWordCompletesWithIllegalCommand := by
  refine ⟨fun s p e rest pending illegal next => ?_, fun v h => decode_of_reservedOp h⟩
  have faulted := faulted_begin { s with schedule := rest } .illegalCommand
  exact ⟨_, next.step_eq.trans (coreTurn_of_illegal (s := { s with schedule := rest }) pending illegal), faulted.ended,
    faulted.recorded, faulted.registers, faulted.slots, faulted.memory, faulted.eq,
    (sameHidden_begin_raiseFault ..).of_schedule, faulted.platform⟩

/-! ## What every command leaves -/

/-- What any command leaves, however it ends: the registers and the platform; and if it ends with a fault, every slot, every byte
and EQ too (R223). -/
structure CommandLeaves (s t : State) : Prop where
  registers : SameRegisters s t
  platform : SamePlatform s t
  raced : t.raced = []
  fault : 6 ≤ t.err.toNat → SameSlots s t ∧ SameMemory s t ∧ t.eq = s.eq

theorem CommandLeaves.of_complete {s u : State} (registers : SameRegisters s u) (platform : SamePlatform s u) {code : StatusCode}
    (h : code.code.toNat ≤ 5) : CommandLeaves s (u.complete code) :=
  ⟨registers, platform, rfl, fun fault => absurd h (Nat.not_le.2 fault)⟩

theorem Frame.leaves {s u : State} (h : Frame s u) {code : StatusCode} (low : code.code.toNat ≤ 5) :
    CommandLeaves s (u.complete code) :=
  .of_complete h.registers h.platform low

theorem Frame.leaves_setEq {s u : State} (h : Frame s u) (v : Bool) {code : StatusCode} (low : code.code.toNat ≤ 5) :
    CommandLeaves s ((u.setEq v).complete code) :=
  .of_complete (u := u.setEq v) h.registers h.platform low

theorem Faulted.leaves {s u : State} {code : StatusCode} (h : Faulted s (u.raiseFault code) code) :
    CommandLeaves s (u.raiseFault code) :=
  ⟨h.registers, h.platform, rfl, fun _ => ⟨h.slots, h.memory, h.eq⟩⟩

section
variable (s : State) (alg : Alg)

theorem initCommand_leaves (ctx : Nat) (pc : Bool) : CommandLeaves s (initCommand alg ctx pc s) := by
  have frame := (Frame.refl s).begin
  obtain ⟨-, e⟩ | ⟨-, -, e⟩ := initCommand_cases alg ctx pc s <;> rw [e]
  · exact frame.leaves (by decide)
  · exact (frame.setSlot _ _).leaves (by decide)

theorem updateCommand_leaves (ctx : Nat) (pa pc : Bool) : CommandLeaves s (updateCommand alg ctx pa pc s) := by
  have frame := (Frame.refl s).begin
  obtain ⟨-, e⟩ | ⟨c, -, -, ⟨-, -, e⟩ | ⟨-, -, e⟩ | ⟨-, -, e⟩ | ⟨-, -, -, -, e⟩ | ⟨-, -, -, -, -, e⟩ | ⟨-, -, -, -, -, e⟩⟩ :=
    updateCommand_cases alg ctx pa pc s <;> rw [e]
  · exact frame.leaves (by decide)
  · exact frame.leaves (by decide)
  · exact (faulted_begin ..).leaves
  · exact (frame.setSlot _ _).leaves (by decide)
  · exact (frame.setSlot _ _).leaves (by decide)
  · exact (faulted_begin ..).leaves
  · exact (((frame.afterFetch _ _).setSlot _ _).clearDatapath _).leaves (by decide)

theorem finalCommand_leaves (ctx : Nat) (pb pc : Bool) : CommandLeaves s (finalCommand alg ctx pb pc s) := by
  have frame := (Frame.refl s).begin
  obtain ⟨-, e⟩ | ⟨c, -, -, ⟨-, e⟩ | ⟨-, -, e⟩ | ⟨-, -, -, e⟩ | ⟨-, -, -, e⟩⟩ := finalCommand_cases alg ctx pb pc s <;> rw [e]
  · exact frame.leaves (by decide)
  · exact (frame.setSlot _ _).leaves (by decide)
  · exact (faulted_begin ..).leaves
  · exact (faulted_begin ..).leaves
  · exact (((frame.setSlot _ _).clearDatapath _).store _ _).leaves (by decide)

theorem oneshotCommand_leaves (pa pb : Bool) : CommandLeaves s (oneshotCommand alg pa pb s) := by
  have begun := (Frame.refl s).begin.wipeScratch alg
  have read := (oneshotRead_frame alg s).wipeScratch alg
  obtain ⟨-, -, e⟩ | ⟨-, -, e⟩ | ⟨-, -, -, e⟩ | ⟨-, -, -, -, e⟩ | ⟨-, -, -, -, -, e⟩ := oneshotCommand_cases alg pa pb s <;>
    rw [e] <;> simp only [oneshotBegin_wipeScratch, oneshotAbsorb_wipeScratch]
  · exact begun.leaves (by decide)
  · exact begun.leaves (by decide)
  · exact (faulted_wipeScratch ..).leaves
  · exact read.leaves (by decide)
  · exact ((read.clearDatapath _).store _ _).leaves (by decide)

theorem tohexCommand_leaves (pa pb : Bool) : CommandLeaves s (tohexCommand alg pa pb s) := by
  have frame := (Frame.refl s).begin
  obtain ⟨-, e⟩ | ⟨-, -, -, e⟩ | ⟨-, -, -, -, e⟩ := tohexCommand_cases alg pa pb s <;> rw [e]
  · exact frame.leaves (by decide)
  · exact (faulted_begin ..).leaves
  · exact ((frame.afterFetch _ _).store _ _).leaves (by decide)

theorem ctcmpCommand_leaves (pa pb : Bool) : CommandLeaves s (ctcmpCommand alg pa pb s) := by
  have frame := (Frame.refl s).begin
  obtain ⟨-, e⟩ | ⟨-, -, -, e⟩ | ⟨-, -, -, -, e⟩ := ctcmpCommand_cases alg pa pb s <;> rw [e]
  · exact frame.leaves_setEq _ (by decide)
  · exact (faulted_begin ..).leaves
  · exact ((frame.afterFetch _ _).afterFetch _ _).leaves_setEq _ (by decide)

end

theorem exec_leaves {i : Instr} {s t : State} (run : exec i s = .next t) : CommandLeaves s t := by
  induction i using Instr.byOperation with
  | init alg ctx pc => cases (exec_init ..).symm.trans run; exact initCommand_leaves ..
  | update alg ctx pa pc => cases (exec_update ..).symm.trans run; exact updateCommand_leaves ..
  | final alg ctx pb pc => cases (exec_final ..).symm.trans run; exact finalCommand_leaves ..
  | oneshot alg pa pb => cases (exec_oneshot ..).symm.trans run; exact oneshotCommand_leaves ..
  | tohex alg pa pb => cases (exec_tohex ..).symm.trans run; exact tohexCommand_leaves ..
  | ctcmp alg pa pb => cases (exec_ctcmp ..).symm.trans run; exact ctcmpCommand_leaves ..

theorem coreTurn_leaves {s : State} (pending : s.pend ≠ none) :
    ∃ t, coreTurn s = .next t ∧ CommandEnds s t ∧ CommandLeaves s t := by
  obtain ⟨p, hp⟩ := Option.ne_none_iff_exists'.1 pending
  obtain ⟨idle, -⟩ | ⟨-, t, turn, ends⟩ := coreTurn_ends s
  · exact absurd idle pending
  refine ⟨t, turn, ends, ?_⟩
  cases hd : decode p.word with
  | ok i => exact exec_leaves ((coreTurn_of_decode hp hd).symm.trans turn)
  | error e => cases (coreTurn_of_illegal hp hd).symm.trans turn; exact (faulted_begin ..).leaves

theorem commandFaults_ne_busyWrite {code : StatusCode} (h : code ∈ commandFaults) : code ≠ .busyWrite := by
  rintro rfl
  revert h
  decide

/-- Settles O8: every command completes or ends with one of the three faults of a command, whose frame says the rest. -/
theorem pendingCommandEndsByCompleteOrFault : Obligations.PendingCommandEndsByCompleteOrFault := by
  intro s p rest pending next
  obtain ⟨t, turn, ⟨code, ended, how⟩, leaves⟩ :=
    coreTurn_leaves (s := { s with schedule := rest }) (pending ▸ Option.some_ne_none p)
  obtain ⟨err, pend⟩ := ended
  refine ⟨t, code, next.step_eq.trans turn, ?_, ⟨err, pend⟩, by simp [State.busy, pend], leaves.raced, leaves.platform.2.2.2,
    ?_, fun fault => ?_⟩
  · obtain ⟨low, -⟩ | ⟨hcode, -⟩ := how
    · rintro rfl
      exact absurd low (by decide)
    · exact commandFaults_ne_busyWrite hcode
  · obtain ⟨-, same⟩ | ⟨hcode, -⟩ := how
    · exact fun _ => same
    · exact fun low => absurd (commandFaults_range hcode).1 (by omega)
  · obtain ⟨low, -⟩ | ⟨-, recorded⟩ := how
    · omega
    · exact ⟨recorded, leaves.fault (err ▸ fault)⟩

/-! ## What a command can do to the slots (R37, R147) -/

/-- The banks are as before, or the command did not end with NullContext and set slot `ctx` of `alg`, from a lifecycle state to
another as `moves` says. -/
def SetsSlot (alg : Alg) (ctx : Nat) (moves : Life → Life → Prop) (s t : State) : Prop :=
  (∀ alg', t.slots alg' = s.slots alg') ∨
    ∃ c c', (s.slots alg)[ctx]? = some c ∧ moves c.life c'.life ∧ t.err ≠ StatusCode.nullContext.code ∧
      ∀ alg', t.slots alg' = (s.setSlot alg ctx c').slots alg'

/-- INIT makes a slot READY (R143). -/
def initMoves (_ l' : Life) : Prop := l' = .ready

/-- UPDATE makes a Live slot ACCUM, or wipes it (R144). -/
def updateMoves (l l' : Life) : Prop := ((l = .ready ∨ l = .accum) ∧ l' = .accum) ∨ l' = .finalized

/-- FINAL wipes a slot (R145). -/
def finalMoves (_ l' : Life) : Prop := l' = .finalized

theorem begin_setSlot_slots (s : State) (ctx : Nat) (c : Context alg) (alg' : Alg) :
    (s.begin.setSlot alg ctx c).slots alg' = (s.setSlot alg ctx c).slots alg' := by
  cases alg <;> cases alg' <;> rfl

theorem Context.live_life {c : Context alg} (live : c.live = true) : c.life = .ready ∨ c.life = .accum := by
  simpa [Context.live] using live

theorem SetsSlot.of_complete {alg : Alg} {ctx : Nat} {moves : Life → Life → Prop} {s u : State} {c : Context alg}
    (slot : (s.slots alg)[ctx]? = some c) (c' : Context alg) (moved : moves c.life c'.life)
    (set : ∀ alg', u.slots alg' = (s.begin.setSlot alg ctx c').slots alg') {code : StatusCode}
    (other : code.code ≠ StatusCode.nullContext.code) : SetsSlot alg ctx moves s (u.complete code) :=
  .inr ⟨c, c', slot, moved, other, fun alg' => by rw [State.complete_slots, set, begin_setSlot_slots]⟩

theorem initCommand_setsSlot (s : State) (alg : Alg) (ctx : Nat) (pc : Bool) :
    SetsSlot alg ctx initMoves s (initCommand alg ctx pc s) := by
  obtain ⟨-, e⟩ | ⟨-, valid, e⟩ := initCommand_cases alg ctx pc s <;> rw [e]
  · exact .inl fun _ => by simp
  · obtain ⟨c, slot⟩ := State.getElem?_of_valid valid
    exact .of_complete slot (Context.init alg) rfl (fun _ => rfl) (by decide)

theorem updateCommand_setsSlot (s : State) (alg : Alg) (ctx : Nat) (pa pc : Bool) :
    SetsSlot alg ctx updateMoves s (updateCommand alg ctx pa pc s) := by
  obtain ⟨-, e⟩ | ⟨c, -, slot, path⟩ := updateCommand_cases alg ctx pa pc s
  · exact .inl fun _ => by simp [e]
  obtain ⟨-, -, e⟩ | ⟨-, -, e⟩ | ⟨live, -, e⟩ | ⟨-, -, -, -, e⟩ | ⟨-, -, -, -, -, e⟩ | ⟨-, live, -, -, -, e⟩ := path <;> rw [e]
  · exact .inl fun _ => by simp
  · exact .inl fun _ => by simp
  · exact .of_complete slot { c with life := .accum } (.inl ⟨Context.live_life live, rfl⟩) (fun _ => rfl) (by decide)
  · exact .of_complete slot c.wipe (.inr rfl) (fun _ => rfl) (by decide)
  · exact .inl fun _ => by simp
  · refine .of_complete slot (c.append (s.fetched s.opA s.opLen)) (.inl ⟨Context.live_life live, rfl⟩) (fun alg' => ?_) (by decide)
    rw [State.clearDatapath_slots]
    cases alg <;> cases alg' <;> rfl

theorem finalCommand_setsSlot (s : State) (alg : Alg) (ctx : Nat) (pb pc : Bool) :
    SetsSlot alg ctx finalMoves s (finalCommand alg ctx pb pc s) := by
  obtain ⟨-, e⟩ | ⟨c, -, slot, ⟨-, e⟩ | ⟨-, -, e⟩ | ⟨-, -, -, e⟩ | ⟨-, -, -, e⟩⟩ := finalCommand_cases alg ctx pb pc s <;> rw [e]
  · exact .inl fun _ => by simp
  · exact .of_complete slot c.wipe rfl (fun _ => rfl) (by decide)
  · exact .inl fun _ => by simp
  · exact .inl fun _ => by simp
  · exact .of_complete slot c.wipe rfl (fun _ => by rw [State.store_slots, State.clearDatapath_slots]) (by decide)

theorem oneshotCommand_slots (s : State) (alg : Alg) (pa pb : Bool) (alg' : Alg) :
    (oneshotCommand alg pa pb s).slots alg' = s.slots alg' := by
  obtain ⟨-, -, e⟩ | ⟨-, -, e⟩ | ⟨-, -, -, e⟩ | ⟨-, -, -, -, e⟩ | ⟨-, -, -, -, -, e⟩ := oneshotCommand_cases alg pa pb s <;>
    simp [e, oneshotBegin_wipeScratch, oneshotAbsorb_wipeScratch]

theorem tohexCommand_slots (s : State) (alg : Alg) (pa pb : Bool) (alg' : Alg) :
    (tohexCommand alg pa pb s).slots alg' = s.slots alg' := by
  obtain ⟨-, e⟩ | ⟨-, -, -, e⟩ | ⟨-, -, -, -, e⟩ := tohexCommand_cases alg pa pb s <;> simp [e]

theorem ctcmpCommand_slots (s : State) (alg : Alg) (pa pb : Bool) (alg' : Alg) :
    (ctcmpCommand alg pa pb s).slots alg' = s.slots alg' := by
  obtain ⟨-, e⟩ | ⟨-, -, -, e⟩ | ⟨-, -, -, -, e⟩ := ctcmpCommand_cases alg pa pb s <;> simp [e]

/-- Every command leaves the banks alone or sets the slot it names, along the edges of its operation. -/
theorem exec_setsSlot {i : Instr} {s t : State} (run : exec i s = .next t) :
    (∀ alg, t.slots alg = s.slots alg) ∨ ∃ alg ctx,
      (∃ pc, i = .init alg ctx pc ∧ SetsSlot alg ctx initMoves s t) ∨
      (∃ pa pc, i = .update alg ctx pa pc ∧ SetsSlot alg ctx updateMoves s t) ∨
      ∃ pb pc, i = .final alg ctx pb pc ∧ SetsSlot alg ctx finalMoves s t := by
  induction i using Instr.byOperation with
  | init alg ctx pc =>
    cases (exec_init ..).symm.trans run
    exact .inr ⟨alg, ctx, .inl ⟨pc, rfl, initCommand_setsSlot ..⟩⟩
  | update alg ctx pa pc =>
    cases (exec_update ..).symm.trans run
    exact .inr ⟨alg, ctx, .inr (.inl ⟨pa, pc, rfl, updateCommand_setsSlot ..⟩)⟩
  | final alg ctx pb pc =>
    cases (exec_final ..).symm.trans run
    exact .inr ⟨alg, ctx, .inr (.inr ⟨pb, pc, rfl, finalCommand_setsSlot ..⟩)⟩
  | oneshot alg pa pb => cases (exec_oneshot ..).symm.trans run; exact .inl (oneshotCommand_slots s alg pa pb)
  | tohex alg pa pb => cases (exec_tohex ..).symm.trans run; exact .inl (tohexCommand_slots s alg pa pb)
  | ctcmp alg pa pb => cases (exec_ctcmp ..).symm.trans run; exact .inl (ctcmpCommand_slots s alg pa pb)

/-- What O37 says of a command that may name a slot. -/
def OnlyNamed (named : Option (Alg × Nat)) (s t : State) : Prop :=
  (∀ alg, t.nCtx alg = s.nCtx alg) ∧ (∀ alg j, named ≠ some (alg, j) → (t.slots alg)[j]? = (s.slots alg)[j]?) ∧
    (t.err = StatusCode.nullContext.code → SameSlots s t)

theorem OnlyNamed.of_same {s t : State} (same : ∀ alg, t.slots alg = s.slots alg) (named : Option (Alg × Nat)) :
    OnlyNamed named s t :=
  ⟨fun alg => congrArg List.length (same alg), fun alg j _ => by rw [same alg], fun _ => sameSlots_of_slots same⟩

theorem SetsSlot.onlyNamed {alg : Alg} {ctx : Nat} {moves : Life → Life → Prop} {s t : State} (h : SetsSlot alg ctx moves s t) :
    OnlyNamed (some (alg, ctx)) s t := by
  obtain same | ⟨c, c', -, -, err, set⟩ := h
  · exact .of_same same _
  · obtain ⟨sizes, others⟩ := (s.setSlot_onlySlot alg ctx c').of_slots set
    refine ⟨sizes, fun alg' j other => others alg' j ?_, fun null => absurd null err⟩
    rintro rfl rfl
    exact other rfl

theorem exec_onlyNamed {i : Instr} {s t : State} (run : exec i s = .next t) : OnlyNamed (Instr.namedSlot i) s t := by
  obtain same | ⟨alg, ctx, ⟨pc, rfl, h⟩ | ⟨pa, pc, rfl, h⟩ | ⟨pb, pc, rfl, h⟩⟩ := exec_setsSlot run
  · exact .of_same same _
  · exact namedSlot_init alg ctx pc ▸ h.onlyNamed
  · exact namedSlot_update alg ctx pa pc ▸ h.onlyNamed
  · exact namedSlot_final alg ctx pb pc ▸ h.onlyNamed

/-- Settles O37: a command sets the slot it names or none. -/
theorem commandChangesAtMostItsSlot : Obligations.CommandChangesAtMostItsSlot := fun _ _ _ run => exec_onlyNamed run

/-- A slot after a command that sets one slot: it is as before, or it is that slot and has moved. -/
theorem SetsSlot.life {alg alg' : Alg} {ctx j : Nat} {moves : Life → Life → Prop} {s t : State} (h : SetsSlot alg ctx moves s t)
    {c c' : Context alg'} (before : (s.slots alg')[j]? = some c) (after : (t.slots alg')[j]? = some c') :
    c' = c ∨ (alg' = alg ∧ moves c.life c'.life) := by
  obtain same | ⟨d, d', slot, moved, -, set⟩ := h
  · rw [same] at after
    exact .inl (Option.some.inj (after.symm.trans before))
  · rw [set] at after
    by_cases own : alg' = alg ∧ j = ctx
    · obtain ⟨rfl, rfl⟩ := own
      rw [State.setSlot_getElem?_self (State.nCtx_of_getElem? slot)] at after
      cases after
      cases slot.symm.trans before
      exact .inr ⟨rfl, moved⟩
    · rw [State.setSlot_slots_get _ _ _ _ _ _ fun e e' => own ⟨e, e'⟩] at after
      exact .inl (Option.some.inj (after.symm.trans before))

/-- Settles O42: INIT, UPDATE and FINAL move the slot they set along their own edges. -/
theorem commandsFollowTheLifecycle : Obligations.CommandsFollowTheLifecycle := by
  intro i s t alg j c c' run before after
  obtain same | ⟨alg', ctx, ⟨pc, rfl, h⟩ | ⟨pa, pc, rfl, h⟩ | ⟨pb, pc, rfl, h⟩⟩ := exec_setsSlot run
  · rw [same, before] at after
    cases after
    exact ⟨.stay _, .inl, .inl, id⟩
  · obtain rfl | ⟨rfl, moved⟩ := h.life before after
    · exact ⟨.stay _, .inl, .inl, id⟩
    · rw [moved]
      exact ⟨.init _, fun _ => .inr ⟨ctx, pc, rfl⟩, nofun, nofun⟩
  · obtain rfl | ⟨rfl, moved⟩ := h.life before after
    · exact ⟨.stay _, .inl, .inl, id⟩
    · obtain ⟨ready | accum, moved⟩ | moved := moved <;> rw [moved]
      · exact ⟨ready ▸ .updateReady, nofun, fun _ => .inr ⟨ctx, pa, pc, rfl⟩, nofun⟩
      · exact ⟨accum ▸ .stay _, nofun, fun _ => .inl accum, nofun⟩
      · exact ⟨.wiped _, nofun, nofun, nofun⟩
  · obtain rfl | ⟨rfl, moved⟩ := h.life before after
    · exact ⟨.stay _, .inl, .inl, id⟩
    · rw [moved]
      exact ⟨.wiped _, nofun, nofun, nofun⟩

/-! ## FAULT along a run (R24, R225) -/

theorem FaultStep.fault_stays {s t : State} (h : FaultStep s t) (fault : s.fault = true) : t.fault = true := by
  obtain ⟨same, -⟩ | ⟨_, -, -, recorded, -⟩ | ⟨-, -, recorded, -⟩ := h
  · exact same.trans fault
  · exact recorded
  · exact recorded

theorem step_fault_stays {s t : State} (turn : step s = .next t) (noReset : ∀ rest, s.schedule ≠ .reset :: rest)
    (fault : s.fault = true) : t.fault = true := by
  obtain ⟨rest, reset, -⟩ | ⟨-, h⟩ := step_faultStep turn
  · exact absurd reset (noReset rest)
  · exact h.fault_stays fault

theorem exec_fault_of_err {i : Instr} {s t : State} (run : exec i s = .next t) (err : 6 ≤ t.err.toNat) : t.fault = true := by
  obtain ⟨t', run', code, ⟨herr, -⟩, ⟨low, -⟩ | ⟨-, recorded, -⟩⟩ := exec_ends i s <;> cases run'.symm.trans run
  · rw [herr] at err
    omega
  · exact recorded

/-- Settles O48: no step but a reset lowers FAULT, and a command with a fault's code has raised it. -/
theorem faultStaysSetUntilReset : Obligations.FaultStaysSetUntilReset :=
  ⟨fun _ _ => step_fault_stays, fun _ _ _ => exec_fault_of_err, State.applyReset_fault, fun _ => rfl⟩

end Sys2Proof.Machine
end

section
/-! What a command's result depends on, O38 (spec/41_hasher.md R148). Two states that show a command the same inputs are carried
through its shared operations side by side. -/

namespace Sys2Proof.Machine

variable {alg : Alg}

/-! ## What a command sees, and what of its result is compared -/

/-- Two states show a command that names `named` the same inputs, and have made the same accesses; EQ is the same if `E`. -/
structure SameView (E : Prop) (named : Option (Alg × Nat)) (s s' : State) : Prop where
  current : s.current = s'.current
  mem : s.mem = s'.mem
  memSize : s.memSize = s'.memSize
  raced : s.raced = s'.raced
  draws : s.raced ≠ [] → s.draws = s'.draws
  nCtx : ∀ alg, s.nCtx alg = s'.nCtx alg
  slot : ∀ alg j, named = some (alg, j) → (s.slots alg)[j]? = (s'.slots alg)[j]?
  accesses : s.accesses = s'.accesses
  eq : E → s.eq = s'.eq

/-- What R148 compares of two results. -/
structure SameResult (E : Prop) (named : Option (Alg × Nat)) (t t' : State) : Prop where
  err : t.err = t'.err
  mem : t.mem = t'.mem
  accesses : t.accesses = t'.accesses
  eq : E → t.eq = t'.eq
  slot : ∀ alg j, named = some (alg, j) → (t.slots alg)[j]? = (t'.slots alg)[j]?

section
variable {E : Prop} {named : Option (Alg × Nat)} {s s' : State} (h : SameView E named s s')
include h

/-! ## The inputs -/

theorem SameView.opA : s.opA = s'.opA := congrArg (·.A.toNat) h.current

theorem SameView.opB : s.opB = s'.opB := congrArg (·.B.toNat) h.current

theorem SameView.opLen : s.opLen = s'.opLen := congrArg (·.LEN.toNat) h.current

theorem SameView.inRange (addr n : Nat) : s.inRange addr n = s'.inRange addr n := by
  rw [State.inRange, State.inRange, h.memSize]

theorem SameView.inputByte (a : Nat) : s.inputByte a = s'.inputByte a := by
  rw [State.inputByte, State.inputByte, h.mem, ← h.raced]
  split
  next raced => rw [h.draws (List.ne_nil_of_mem raced)]
  next => rfl

theorem SameView.fetched (addr n : Nat) : s.fetched addr n = s'.fetched addr n :=
  List.map_congr_left fun k _ => h.inputByte (addr + k)

theorem SameView.handle {ctx : Nat} (own : named = some (alg, ctx)) (pc : Bool) : s.handle alg pc ctx = s'.handle alg pc ctx := by
  rw [State.handle, State.handle, State.ctxValid, State.ctxValid, h.nCtx alg, h.slot alg ctx own]

/-! ## The shared operations -/

theorem SameView.afterFetch (addr n : Nat) : SameView E named (s.afterFetch addr n) (s'.afterFetch addr n) :=
  { h with
    slot := by simpa using h.slot
    nCtx := by simpa using h.nCtx
    accesses := congrArg (· ++ _) h.accesses }

theorem SameView.setEq (v : Bool) : SameView E named (s.setEq v) (s'.setEq v) :=
  { h with
    slot := by simpa using h.slot
    nCtx := by simpa using h.nCtx
    eq := fun _ => rfl }

theorem SameView.store (addr : Nat) (bs : List Byte) : SameView E named (s.store addr bs) (s'.store addr bs) :=
  { h with
    mem := by
      rw [State.store_mem, State.store_mem, h.mem, ← h.raced]
      by_cases unraced : s.raced = []
      · rw [unraced, Memory.writeRaced_nil, Memory.writeRaced_nil]
      · rw [h.draws unraced]
    slot := by simpa using h.slot
    nCtx := by simpa using h.nCtx
    accesses := congrArg (· ++ _) h.accesses }

/-- Operations on the hidden state are not seen. -/
theorem SameView.clearDatapath (alg : Alg) : SameView E named (s.clearDatapath alg) (s'.clearDatapath alg) where
  current := by simpa using h.current
  mem := by simpa using h.mem
  memSize := by simpa using h.memSize
  raced := by simpa using h.raced
  draws := by simpa using h.draws
  nCtx := by simpa using h.nCtx
  slot := by simpa using h.slot
  accesses := by simpa using h.accesses
  eq := by simpa using h.eq

theorem SameView.wipeScratch (alg : Alg) : SameView E named (s.wipeScratch alg) (s'.wipeScratch alg) where
  current := by simpa using h.current
  mem := by simpa using h.mem
  memSize := by simpa using h.memSize
  raced := by simpa using h.raced
  draws := by simpa using h.draws
  nCtx := by simpa using h.nCtx
  slot := by simpa using h.slot
  accesses := by simpa using h.accesses
  eq := by simpa using h.eq

theorem SameView.setSlot (i : Nat) (c : Context alg) : SameView E named (s.setSlot alg i c) (s'.setSlot alg i c) where
  current := by simpa using h.current
  mem := by simpa using h.mem
  memSize := by simpa using h.memSize
  raced := by simpa using h.raced
  draws := by simpa using h.draws
  nCtx := by simpa using h.nCtx
  slot alg' j own := by
    by_cases e : alg' = alg ∧ j = i
    · obtain ⟨rfl, rfl⟩ := e
      rw [State.setSlot_slots_self, State.setSlot_slots_self, List.getElem?_set, List.getElem?_set, if_pos rfl, if_pos rfl]
      have size : (s.slots alg').length = (s'.slots alg').length := h.nCtx alg'
      rw [size]
    · rw [State.setSlot_slots_get _ _ _ _ _ _ fun a b => e ⟨a, b⟩, State.setSlot_slots_get _ _ _ _ _ _ fun a b => e ⟨a, b⟩]
      exact h.slot alg' j own
  accesses := by simpa using h.accesses
  eq := by simpa using h.eq

theorem SameView.complete (code : StatusCode) : SameResult E named (s.complete code) (s'.complete code) :=
  ⟨rfl, h.mem, h.accesses, h.eq, by simpa using h.slot⟩

theorem SameView.raiseFault (code : StatusCode) : SameResult E named (s.raiseFault code) (s'.raiseFault code) :=
  ⟨rfl, h.mem, h.accesses, h.eq, by simpa using h.slot⟩

/-! ## The commands, past the handle -/

theorem SameView.updateSlot (ctx : Nat) (pa : Bool) (c : Context alg) :
    SameResult E named (updateSlot alg ctx pa c s) (updateSlot alg ctx pa c s') := by
  unfold Machine.updateSlot
  rw [← h.opLen, ← h.opA, ← h.inRange, ← h.fetched]
  split_ifs
  · exact h.complete _
  · exact h.raiseFault _
  · exact (h.setSlot _ _).complete _
  · exact (h.setSlot _ _).complete _
  · exact h.raiseFault _
  · exact (((h.afterFetch _ _).setSlot _ _).clearDatapath _).complete _

theorem SameView.finalSlot (ctx : Nat) (pb : Bool) (c : Context alg) :
    SameResult E named (finalSlot alg ctx pb c s) (finalSlot alg ctx pb c s') := by
  unfold Machine.finalSlot
  rw [← h.opB, ← h.inRange]
  split_ifs
  · exact (h.setSlot _ _).complete _
  · exact h.raiseFault _
  · exact h.raiseFault _
  · exact (((h.setSlot _ _).clearDatapath _).store _ _).complete _

end

/-! ## The commands -/

section
variable {E : Prop} {named : Option (Alg × Nat)} {s s' : State} (h : SameView E named s.begin s'.begin)
include h

theorem initCommand_sameResult {ctx : Nat} (own : named = some (alg, ctx)) (pc : Bool) :
    SameResult E named (initCommand alg ctx pc s) (initCommand alg ctx pc s') := by
  unfold initCommand
  rw [← h.handle own]
  cases s.begin.handle alg pc ctx with
  | none => exact h.complete _
  | some c => exact (h.setSlot _ _).complete _

theorem updateCommand_sameResult {ctx : Nat} (own : named = some (alg, ctx)) (pa pc : Bool) :
    SameResult E named (updateCommand alg ctx pa pc s) (updateCommand alg ctx pa pc s') := by
  unfold updateCommand
  rw [← h.handle own]
  cases s.begin.handle alg pc ctx with
  | none => exact h.complete _
  | some c => exact h.updateSlot ctx pa c

theorem finalCommand_sameResult {ctx : Nat} (own : named = some (alg, ctx)) (pb pc : Bool) :
    SameResult E named (finalCommand alg ctx pb pc s) (finalCommand alg ctx pb pc s') := by
  unfold finalCommand
  rw [← h.handle own]
  cases s.begin.handle alg pc ctx with
  | none => exact h.complete _
  | some c => exact h.finalSlot ctx pb c

theorem oneshotRead_sameView (alg : Alg) : SameView E named (oneshotRead alg s) (oneshotRead alg s') := by
  have opLen : s.opLen = s'.opLen := h.opLen
  have opA : s.opA = s'.opA := h.opA
  unfold oneshotRead
  rw [← opLen, ← opA]
  split_ifs
  · exact (h.afterFetch _ _).clearDatapath _
  · exact h

theorem oneshotContext_congr (alg : Alg) : oneshotContext alg s = oneshotContext alg s' := by
  have opLen : s.opLen = s'.opLen := h.opLen
  have opA : s.opA = s'.opA := h.opA
  have fetched : ∀ addr n, s.fetched addr n = s'.fetched addr n := h.fetched
  rw [oneshotContext, oneshotContext, opLen, opA, fetched]

theorem oneshotCommand_sameResult (alg : Alg) (pa pb : Bool) :
    SameResult E named (oneshotCommand alg pa pb s) (oneshotCommand alg pa pb s') := by
  have opA : s.opA = s'.opA := h.opA
  have opB : s.opB = s'.opB := h.opB
  have opLen : s.opLen = s'.opLen := h.opLen
  have inRange : ∀ addr n, s.inRange addr n = s'.inRange addr n := h.inRange
  have begun := h.wipeScratch alg
  have read := (oneshotRead_sameView h alg).wipeScratch alg
  rw [oneshotCommand_eq, oneshotCommand_eq, ← opLen, ← opA, ← opB, ← inRange, ← inRange]
  split_ifs
  · exact begun.complete _
  · exact begun.complete _
  · exact begun.raiseFault _
  · exact begun.raiseFault _
  · exact read.complete _
  · unfold oneshotDone
    rw [← oneshotContext_congr h, ← opB]
    exact ((read.clearDatapath _).store _ _).complete _

theorem tohexCommand_sameResult (alg : Alg) (pa pb : Bool) :
    SameResult E named (tohexCommand alg pa pb s) (tohexCommand alg pa pb s') := by
  have opA : s.opA = s'.opA := h.opA
  have opB : s.opB = s'.opB := h.opB
  have inRange : ∀ addr n, s.inRange addr n = s'.inRange addr n := h.inRange
  unfold tohexCommand tohexRun
  rw [← h.opA, ← h.opB, ← h.fetched, ← opA, ← opB, ← inRange, ← inRange]
  split_ifs
  · exact h.complete _
  · exact h.raiseFault _
  · exact ((h.afterFetch _ _).store _ _).complete _

theorem ctcmpCommand_sameResult (alg : Alg) (pa pb : Bool) :
    SameResult E named (ctcmpCommand alg pa pb s) (ctcmpCommand alg pa pb s') := by
  have opA : s.opA = s'.opA := h.opA
  have opB : s.opB = s'.opB := h.opB
  have inRange : ∀ addr n, s.inRange addr n = s'.inRange addr n := h.inRange
  unfold ctcmpCommand ctcmpRun
  rw [← h.opA, ← h.opB, ← h.fetched, ← h.fetched, ← opA, ← opB, ← inRange, ← inRange]
  split_ifs
  · exact (h.setEq _).complete _
  · exact h.raiseFault _
  · exact (((h.afterFetch _ _).afterFetch _ _).setEq _).complete _

end

theorem exec_sameResult {i : Instr} {E : Prop} {s s' t t' : State} (h : SameView E (Instr.namedSlot i) s.begin s'.begin)
    (run : exec i s = .next t) (run' : exec i s' = .next t') : SameResult E (Instr.namedSlot i) t t' := by
  induction i using Instr.byOperation with
  | init alg ctx pc =>
    cases (exec_init ..).symm.trans run
    cases (exec_init ..).symm.trans run'
    exact initCommand_sameResult h (namedSlot_init ..) pc
  | update alg ctx pa pc =>
    cases (exec_update ..).symm.trans run
    cases (exec_update ..).symm.trans run'
    exact updateCommand_sameResult h (namedSlot_update ..) pa pc
  | final alg ctx pb pc =>
    cases (exec_final ..).symm.trans run
    cases (exec_final ..).symm.trans run'
    exact finalCommand_sameResult h (namedSlot_final ..) pb pc
  | oneshot alg pa pb =>
    cases (exec_oneshot ..).symm.trans run
    cases (exec_oneshot ..).symm.trans run'
    exact oneshotCommand_sameResult h alg pa pb
  | tohex alg pa pb =>
    cases (exec_tohex ..).symm.trans run
    cases (exec_tohex ..).symm.trans run'
    exact tohexCommand_sameResult h alg pa pb
  | ctcmp alg pa pb =>
    cases (exec_ctcmp ..).symm.trans run
    cases (exec_ctcmp ..).symm.trans run'
    exact ctcmpCommand_sameResult h alg pa pb

/-- Settles O38: a command begins with no accesses, and carries the same view of its inputs to the same result. -/
theorem commandDependsOnlyOnItsInputs : Obligations.CommandDependsOnlyOnItsInputs := by
  intro i s s' t t' run run' current mem memSize raced draws nCtx slot
  have view : SameView (s.eq = s'.eq) (Instr.namedSlot i) s.begin s'.begin :=
    { current := current, mem := mem, memSize := memSize, raced := raced, draws := draws
      nCtx := by simpa using nCtx
      slot := by simpa using slot
      accesses := rfl
      eq := id }
  have result := exec_sameResult view run run'
  exact ⟨result.err, result.mem, result.accesses, result.eq, result.slot⟩

end Sys2Proof.Machine
end

section
/-! The functions the commands are made of: rotation, O27, big-endian words, O28, and the padding's length field, O35; compression
on any datapath, O31; the counter check, O33 (spec/00_scope.md R9, spec/40_compression.md R117, spec/41_hasher.md R142,
spec/42_padding.md R180). -/

namespace Sys2Proof.Machine

variable {alg : Alg}

/-- Settles O27: bit `i` comes from the right shift while `i + n` is below the width, and from the left shift after that. -/
theorem rotationMovesEveryBit : Obligations.RotationMovesEveryBit := by
  intro w x n i pos lt bit
  rw [rotr, BitVec.getLsbD_or, BitVec.getLsbD_ushiftRight, BitVec.getLsbD_shiftLeft, Nat.add_comm n i]
  obtain low | high := Nat.lt_or_ge (i + n) w
  · rw [Nat.mod_eq_of_lt low, decide_eq_true (p := i < w - n) (by omega)]
    simp
  · have wrapped : (i + n) % w = i - (w - n) := by
      rw [Nat.mod_eq_sub_mod high, Nat.mod_eq_of_lt (by omega)]
      omega
    rw [wrapped, BitVec.getLsbD_of_ge x (i + n) high, decide_eq_true bit, decide_eq_false (p := i < w - n) (by omega)]
    simp

/-! ## Bytes as a big-endian number (R9) -/

/-- The number whose big-endian bytes these are. -/
def natOfBytes (bs : List Byte) : Nat := bs.foldl (fun x b => 256 * x + b.toNat) 0

theorem foldl_natOfBytes (x : Nat) (bs : List Byte) :
    bs.foldl (fun x b => 256 * x + b.toNat) x = x * 256 ^ bs.length + natOfBytes bs := by
  induction bs generalizing x with
  | nil => simp [natOfBytes]
  | cons b bs ih =>
    rw [natOfBytes, List.foldl_cons, List.foldl_cons, ih, ih (256 * 0 + b.toNat), List.length_cons]
    ring

theorem natOfBytes_cons (b : Byte) (bs : List Byte) : natOfBytes (b :: bs) = b.toNat * 256 ^ bs.length + natOfBytes bs := by
  rw [natOfBytes, List.foldl_cons, foldl_natOfBytes, Nat.mul_zero, Nat.zero_add]

theorem natOfBytes_eq_sum (bs : List Byte) :
    natOfBytes bs = ((List.range bs.length).map fun k => (bs.getD k 0).toNat * 2 ^ (8 * (bs.length - 1 - k))).sum := by
  induction bs with
  | nil => rfl
  | cons b bs ih =>
    rw [natOfBytes_cons, ih, List.length_cons, List.range_succ_eq_map, List.map_cons, List.sum_cons, List.map_map]
    congr 1
    · simp [pow_mul]
    · refine congrArg List.sum (List.map_congr_left fun k _ => ?_)
      rw [Function.comp_apply, List.getD_cons_succ, show bs.length + 1 - 1 - Nat.succ k = bs.length - 1 - k by omega]

theorem bytesOfNat_succ (n x : Nat) : bytesOfNat (n + 1) x = BitVec.ofNat 8 (x / 2 ^ (8 * n)) :: bytesOfNat n x := by
  rw [bytesOfNat, List.range_succ_eq_map, List.map_cons, List.map_map, bytesOfNat]
  congr 1
  refine List.map_congr_left fun k _ => ?_
  rw [Function.comp_apply, show n + 1 - 1 - Nat.succ k = n - 1 - k by omega]

/-- `toBE_n` writes the number modulo `2^(8n)` (R9). -/
theorem natOfBytes_bytesOfNat (n x : Nat) : natOfBytes (bytesOfNat n x) = x % 256 ^ n := by
  induction n with
  | zero => simp [bytesOfNat, natOfBytes, Nat.mod_one]
  | succ n ih =>
    have split : x % 256 ^ (n + 1) = x % 256 ^ n + 256 ^ n * (x / 256 ^ n % 256) := Nat.mod_mul
    rw [bytesOfNat_succ, natOfBytes_cons, ih, bytesOfNat_length, BitVec.toNat_ofNat, pow_mul, split, Nat.mul_comm, Nat.add_comm]
    rfl

/-- `BE_w` appends one byte as long as the word has room for it. -/
theorem wordOfBytes_step {w : Nat} {acc : BitVec w} {b : Byte} (width : 8 ≤ w) (room : acc.toNat * 256 < 2 ^ w) :
    ((acc <<< 8) ||| b.setWidth w).toNat = 256 * acc.toNat + b.toNat := by
  have byte : b.toNat < 2 ^ 8 := b.isLt
  have fits : 2 ^ 8 ≤ 2 ^ w := Nat.pow_le_pow_right (by decide) width
  have shift : acc.toNat * 256 = acc.toNat <<< 8 := (Nat.shiftLeft_eq acc.toNat 8).symm
  rw [BitVec.toNat_or, BitVec.toNat_shiftLeft, BitVec.toNat_setWidth, Nat.mod_eq_of_lt (a := b.toNat) (by omega), ← shift,
    Nat.mod_eq_of_lt room, shift, ← Nat.shiftLeft_add_eq_or_of_lt byte, ← shift, Nat.mul_comm]

theorem width_eq (alg : Alg) : alg.w = 8 * (alg.w / 8) := by cases alg <;> rfl

theorem natOfBytes_lt (bs : List Byte) : natOfBytes bs < 256 ^ bs.length := by
  induction bs with
  | nil => simp [natOfBytes]
  | cons b bs ih =>
    rw [natOfBytes_cons, List.length_cons, Nat.pow_succ]
    have byte : b.toNat < 2 ^ 8 := b.isLt
    nlinarith

theorem wordOfBytes_toNat (alg : Alg) {bs : List Byte} (h : 8 * bs.length ≤ alg.w) :
    (wordOfBytes alg bs).toNat = natOfBytes bs := by
  induction bs using List.reverseRecOn with
  | nil => simp [wordOfBytes, natOfBytes]
  | append_singleton bs b ih =>
    rw [List.length_append, List.length_singleton] at h
    have before := ih (by omega)
    rw [wordOfBytes] at before ⊢
    have room : natOfBytes bs * 256 < 2 ^ alg.w :=
      calc natOfBytes bs * 256 < 256 ^ bs.length * 256 := Nat.mul_lt_mul_of_pos_right (natOfBytes_lt bs) (by decide)
        _ = 2 ^ (8 * (bs.length + 1)) := (pow_mul 2 8 (bs.length + 1)).symm
        _ ≤ 2 ^ alg.w := Nat.pow_le_pow_right (by decide) h
    rw [List.foldl_append, List.foldl_cons, List.foldl_nil, wordOfBytes_step (by omega) (by rwa [before]), before, natOfBytes,
      natOfBytes, List.foldl_append, List.foldl_cons, List.foldl_nil]

/-- Settles O28: both directions go through the number that the bytes write. -/
theorem bigEndianBytesAndWordsAgree : Obligations.BigEndianBytesAndWordsAgree := by
  refine ⟨fun alg bs length => ?_, fun alg x => ?_⟩
  · rw [wordOfBytes_toNat alg (by rw [length]; exact (width_eq alg).ge), natOfBytes_eq_sum, length]
  · apply BitVec.eq_of_toNat_eq
    rw [wordOfBytes_toNat alg (by rw [bytesOfNat_length]; exact (width_eq alg).ge), natOfBytes_bytesOfNat]
    refine Nat.mod_eq_of_lt ?_
    rw [show (256 : Nat) = 2 ^ 8 by rfl, ← pow_mul, ← (width_eq alg)]
    exact x.isLt

/-! ## The length field of the padding (R183) -/

theorem natOfBytes_lengthField (alg : Alg) (bc : BitVec alg.counterWidth) :
    natOfBytes (bytesOfNat alg.lengthSize bc.toNat) = bc.toNat := by
  rw [natOfBytes_bytesOfNat]
  have width : 256 ^ alg.lengthSize = 2 ^ alg.counterWidth := by cases alg <;> rfl
  exact Nat.mod_eq_of_lt (width ▸ bc.isLt)

/-- Settles O35: the last `L` bytes are the length field, and what stands between it and the first byte is the zero fill. -/
theorem paddingEndsInTheBitCount : Obligations.PaddingEndsInTheBitCount := by
  intro alg k bc inBlock
  have length : (pad alg k bc.toNat).length = 1 + padZeros alg k + alg.lengthSize := by
    rw [pad, List.length_cons, List.length_append, List.length_replicate, bytesOfNat_length]
    omega
  refine ⟨rfl, fun i first inFill => ?zeros, ?field⟩
  case zeros =>
    obtain ⟨j, rfl⟩ := Nat.exists_eq_add_of_le' first
    have fill : j < padZeros alg k := by omega
    rw [pad, List.getElem?_cons_succ, List.getElem?_append_left (by rwa [List.length_replicate]),
      List.getElem?_replicate_of_lt fill]
  case field =>
    have split : pad alg k bc.toNat = (0x80 :: List.replicate (padZeros alg k) 0) ++ bytesOfNat alg.lengthSize bc.toNat := rfl
    rw [length, Nat.add_sub_cancel, split, List.drop_left' (by simp; omega)]
    exact natOfBytes_lengthField alg bc

/-! ## Compression on any datapath (R117) -/

/-- What the datapath held before does not reach the working variables. -/
theorem Datapath.load_afterRounds_vars (dp dp' : Datapath alg) (H : Vector (BitVec alg.w) 8) (M : List Byte) (n : Nat) :
    ((dp.load H M).afterRounds n).vars = ((dp'.load H M).afterRounds n).vars := by
  induction n with
  | zero => rfl
  | succ n ih => rw [load_afterRounds_vars_succ, load_afterRounds_vars_succ, ih]

/-- Settles O31: loading sets everything the rounds read. -/
theorem compressionIsPureAndClears : Obligations.CompressionIsPureAndClears := fun alg dp H M =>
  ⟨congrArg (addBack H) (dp.load_afterRounds_vars (Datapath.zero alg) H M alg.rounds), rfl⟩

/-! ## The counter check in bytes (R142) -/

/-- Settles O33: both sides divided by 8. -/
theorem counterCheckIsTheByteBound : Obligations.CounterCheckIsTheByteBound := by
  intro bc n bytes
  rw [counterFits_eq_true, counterFits_eq_true]
  constructor
  · change bc + 8 * n ≤ 2 ^ 64 - 1 ↔ _
    omega
  · change bc + 8 * n ≤ 2 ^ 128 - 1 ↔ _
    omega

end Sys2Proof.Machine
end

section
/-! Splitting a stream into chunks (spec/41_hasher.md R150): on contexts, O40, and on the machine, O41. -/

namespace Sys2Proof.Machine

variable {alg : Alg}

/-! ## Contexts that have taken the same stream -/

/-- Two contexts hold the same state words, buffered bytes and count: all that finalization reads. -/
structure SameStream (c c' : Context alg) : Prop where
  absorbed : c.absorbed = c'.absorbed
  bitCount : c.bitCount = c'.bitCount

theorem SameStream.trans {c c' c'' : Context alg} (h : SameStream c c') (h' : SameStream c' c'') : SameStream c c'' :=
  ⟨h.absorbed.trans h'.absorbed, h.bitCount.trans h'.bitCount⟩

theorem SameStream.finalize {c c' : Context alg} (h : SameStream c c') : c.finalize = c'.finalize := by
  have H : c.H = c'.H := congrArg Absorbed.H h.absorbed
  have pending : c.pending = c'.pending := congrArg Absorbed.pending h.absorbed
  have bufLen : c.bufLen.val = c'.bufLen.val := by rw [← c.pending_length, ← c'.pending_length, pending]
  rw [Context.finalize_eq, Context.finalize_eq, H, pending, bufLen, h.bitCount]

theorem Context.append_nil_sameStream (c : Context alg) : SameStream c (c.append []) := by
  rw [Context.append_nil]
  exact ⟨rfl, rfl⟩

/-- Two UPDATEs absorb what one of both their data does. -/
theorem Context.append_append_sameStream (c : Context alg) (d e : List Byte) :
    SameStream ((c.append d).append e) (c.append (d ++ e)) where
  absorbed := by
    rw [append_absorbed, append_absorb_absorbed, append_absorbed, absorb_absorbed]
  bitCount := by
    rw [append_bitCount, append_bitCount, append_bitCount, BitVec.add_assoc, ← BitVec.ofNat_add, List.length_append, Nat.mul_add]

theorem foldl_append_sameStream (c : Context alg) (chunks : List (List Byte)) :
    SameStream (chunks.foldl Context.append c) (c.append chunks.flatten) := by
  induction chunks generalizing c with
  | nil => exact c.append_nil_sameStream
  | cons d chunks ih => exact (ih (c.append d)).trans (c.append_append_sameStream d chunks.flatten)

/-- Settles O40: by induction on the chunks, the contexts have taken the same stream. -/
theorem chunkingDoesNotChangeTheDigest : Obligations.ChunkingDoesNotChangeTheDigest := fun alg chunks =>
  (foldl_append_sameStream (Context.init alg) chunks).finalize

/-! ## UPDATE of given operands -/

theorem dword_halves (x : DWord) : x.extractLsb' 32 32 ++ x.extractLsb' 0 32 = x := by
  refine BitVec.eq_of_getLsbD_eq fun k hk => ?_
  rw [BitVec.getLsbD_append]
  split
  next low => rw [BitVec.getLsbD_extractLsb', decide_eq_true low, Nat.zero_add, Bool.true_and]
  next high =>
    rw [BitVec.getLsbD_extractLsb', decide_eq_true (by omega), Bool.true_and, Nat.add_sub_cancel' (Nat.not_lt.1 high)]

theorem withOperands_argA (s : State) (A LEN : DWord) : (s.withOperands A LEN).argA = A := dword_halves A

theorem withOperands_argLen (s : State) (A LEN : DWord) : (s.withOperands A LEN).argLen = LEN := dword_halves LEN

theorem OnlySlot.refl (alg : Alg) (i : Nat) (s : State) : OnlySlot alg i s s := ⟨fun _ => rfl, fun _ _ _ => rfl⟩

theorem OnlySlot.trans {i : Nat} {s t u : State} (h : OnlySlot alg i s t) (h' : OnlySlot alg i t u) : OnlySlot alg i s u :=
  ⟨fun alg' => (h'.1 alg').trans (h.1 alg'), fun alg' j other => (h'.2 alg' j other).trans (h.2 alg' j other)⟩

theorem OnlySlot.symm {i : Nat} {s t : State} (h : OnlySlot alg i s t) : OnlySlot alg i t s :=
  ⟨fun alg' => (h.1 alg').symm, fun alg' j other => (h.2 alg' j other).symm⟩

/-- What an UPDATE on a live slot that passes its checks leaves unchanged, with data or none. -/
theorem updateCommand_live_frame {ctx : Nat} {s : State} {c : Context alg} (slot : (s.slots alg)[ctx]? = some c)
    (live : c.live = true) (fits : counterFits alg c.bitCount.toNat s.opLen = true) (range : s.inRange s.opA s.opLen = true) :
    Ended (updateCommand alg ctx true true s) .ok ∧ OnlySlot alg ctx s (updateCommand alg ctx true true s) := by
  obtain empty | data := Nat.eq_zero_or_pos s.opLen
  · rw [updateCommand_empty slot live empty]
    exact ⟨.complete .., setSlot_complete_onlySlot ..⟩
  · rw [updateCommand_ok slot live data (counterFits_eq_true.1 fits)
      ((State.inRange_eq_true.1 range).resolve_left data.ne')]
    exact ⟨.complete .., updated_onlySlot ..⟩

/-- The state after an UPDATE of `n` bytes at `A`, stored to CMD with its operands. -/
def updateOperands (alg : Alg) (ctx : Nat) (s : State) (A n : DWord) : State :=
  updateCommand alg ctx true true ((s.withOperands A n).accept (encode (.update alg ctx true true)))

theorem updateOperands_spec {ctx : Nat} {s : State} {c : Context alg} (slot : (s.slots alg)[ctx]? = some c) (live : c.live = true)
    {A n : DWord} (fits : counterFits alg c.bitCount.toNat n.toNat = true) (range : s.inRange A.toNat n.toNat = true) :
    ((updateOperands alg ctx s A n).slots alg)[ctx]? = some (c.append (s.bytesAt A.toNat n.toNat)) ∧
      (updateOperands alg ctx s A n).mem = s.mem ∧ (updateOperands alg ctx s A n).memSize = s.memSize ∧
      Ended (updateOperands alg ctx s A n) .ok ∧ OnlySlot alg ctx s (updateOperands alg ctx s A n) := by
  have same := SameInputs.refl (s.withOperands A n)
  have loaded : OnlySlot alg ctx s ((s.withOperands A n).accept (encode (.update alg ctx true true))) :=
    (OnlySlot.refl alg ctx s).of_slots fun alg' => by cases alg' <;> rfl
  have slot' : (((s.withOperands A n).accept (encode (.update alg ctx true true))).slots alg)[ctx]? = some c := by
    cases alg <;> exact slot
  have fits' : counterFits alg c.bitCount.toNat ((s.withOperands A n).accept (encode (.update alg ctx true true))).opLen = true := by
    rwa [same.accept_opLen, withOperands_argLen]
  have range' : State.inRange _ _ _ = true := (same.accept_inputRange (encode (.update alg ctx true true))).trans
    (by rw [withOperands_argA, withOperands_argLen]; exact range)
  obtain ⟨appended, inputs⟩ := updateCommand_live slot' live fits' range'
  obtain ⟨ended, onlySlot⟩ := updateCommand_live_frame slot' live fits' range'
  rw [same.accept_input, withOperands_argA, withOperands_argLen] at appended
  exact ⟨appended, inputs.mem, inputs.memSize, ended, loaded.trans onlySlot⟩

theorem State.bytesAt_add (s : State) (addr m n : Nat) : s.bytesAt addr (m + n) = s.bytesAt addr m ++ s.bytesAt (addr + m) n := by
  simp [State.bytesAt, List.range_add, Nat.add_assoc]

theorem State.bytesAt_congr {s t : State} (mem : t.mem = s.mem) (addr n : Nat) : t.bytesAt addr n = s.bytesAt addr n := by
  rw [State.bytesAt, State.bytesAt, mem]

@[simp] theorem State.bytesAt_length (s : State) (addr n : Nat) : (s.bytesAt addr n).length = n := by simp [State.bytesAt]

theorem State.bytesAt_zero (s : State) (addr : Nat) : s.bytesAt addr 0 = [] := rfl

/-- Settles O41: the two UPDATEs append the two halves of the bytes that the joint one appends. -/
theorem twoUpdatesAreOneUpdate : Obligations.TwoUpdatesAreOneUpdate := by
  intro alg ctx c s A n₁ n₂ slot live size noWrap range fits
  refine ⟨updateOperands alg ctx s A n₁, updateOperands alg ctx (updateOperands alg ctx s A n₁) (A + n₁) n₂,
    updateOperands alg ctx s A (n₁ + n₂), exec_update .., exec_update .., exec_update .., ?_⟩
  rw [State.inRange_eq_true] at range
  have fits' := counterFits_eq_true.1 fits
  have sum : (n₁ + n₂).toNat = n₁.toNat + n₂.toNat := by
    rw [BitVec.toNat_add, Nat.mod_eq_of_lt noWrap]
  obtain ⟨slot1, mem1, size1, -, only1⟩ := updateOperands_spec (n := n₁) (A := A) slot live
    (counterFits_eq_true.2 (by omega)) (State.inRange_eq_true.2 (by omega))
  obtain ⟨slotJ, memJ, -, endedJ, onlyJ⟩ := updateOperands_spec (n := n₁ + n₂) (A := A) slot live (by rwa [sum])
    (State.inRange_eq_true.2 (by rwa [sum]))
  have counted : (c.append (s.bytesAt A.toNat n₁.toNat)).bitCount.toNat = c.bitCount.toNat + 8 * n₁.toNat :=
    c.append_bitCount_toNat_of_le (s.bytesAt_length ..) (by omega)
  obtain ⟨slot2, mem2, -, ended2, only2⟩ := updateOperands_spec (n := n₂) (A := A + n₁) slot1 (Context.append_live ..)
    (counterFits_eq_true.2 (by rw [counted]; omega))
    (State.inRange_eq_true.2 (by rw [size1, BitVec.toNat_add]; omega))
  have second : (updateOperands alg ctx s A n₁).bytesAt (A + n₁).toNat n₂.toNat = s.bytesAt (A.toNat + n₁.toNat) n₂.toNat := by
    rw [State.bytesAt_congr mem1]
    obtain none | some := Nat.eq_zero_or_pos n₂.toNat
    · rw [none, State.bytesAt_zero, State.bytesAt_zero]
    · rw [BitVec.toNat_add, Nat.mod_eq_of_lt (by omega)]
  rw [second] at slot2
  rw [sum, State.bytesAt_add] at slotJ
  have same := c.append_append_sameStream (s.bytesAt A.toNat n₁.toNat) (s.bytesAt (A.toNat + n₁.toNat) n₂.toNat)
  exact ⟨ended2, endedJ, fun a => by rw [mem2, mem1, memJ], (onlyJ.symm.trans only1).trans only2, _, _, slotJ, slot2,
    congrArg Absorbed.H same.absorbed, same.bitCount, congrArg Absorbed.pending same.absorbed, rfl, same.finalize⟩

end Sys2Proof.Machine
end

section
/-! The host (spec/10_state.md R20 to R31, spec/20_memory.md R61): the register window, O43 to O45 and O47, buffer memory, O58,
what the host cannot see, O51, and a run without a fault, O50. -/

namespace Sys2Proof.Machine

variable {alg : Alg}

/-! ## The registers of the window -/

theorem regAt_eq_some {off : Nat} {r : RegName} (h : regAt off = some r) : off % 4 = 0 ∧ off < 0x24 := by
  unfold regAt at h
  split at h <;> cases h <;> decide

theorem State.windowRead_of_regAt {off : Nat} {r : RegName} (h : regAt off = some r) (s : State) :
    s.windowRead .word off = s.readReg r := by
  rw [State.windowRead, if_pos ⟨rfl, (regAt_eq_some h).1⟩, h]
  rfl

theorem State.windowWrite_of_regAt {off : Nat} {r : RegName} (h : regAt off = some r) (s : State) (v : Word) :
    s.windowWrite .word off v = s.writeReg r v := by
  rw [State.windowWrite, if_pos ⟨rfl, (regAt_eq_some h).1⟩, h]

theorem State.writeReg_idle {s : State} (idle : s.pend = none) (r : RegName) (v : Word) : s.writeReg r v = s.writeRegIdle v r := by
  rw [State.writeReg, State.busy, idle]
  rfl

/-- A store to a register with nothing pending (R22, R27 to R29). -/
theorem step_storeReg_idle {s : State} {off : Nat} {r : RegName} {v : Word} {rest : List Turn} (h : regAt off = some r)
    (hs : s.schedule = .host (.storeReg .word (s.regBase + off) v) :: rest) (idle : s.pend = none) :
    step s = .next (({ s with schedule := rest } : State).writeRegIdle v r) :=
  calc step s = _ := step_host hs
    _ = _ := hostTurn_storeReg (Nat.lt_trans (regAt_eq_some h).2 (by decide)) { s with schedule := rest } .word v
    _ = _ := by rw [State.windowWrite_of_regAt h, State.writeReg_idle (s := { s with schedule := rest }) idle]

/-- Settles O43: the store to offset 0 is `State.accept`. -/
theorem cmdStoreStartsACommand : Obligations.CmdStoreStartsACommand := by
  intro s v rest hs idle
  exact ⟨_, step_storeReg_idle (off := 0x00) (r := .cmd) rfl hs idle, rfl, rfl, rfl, rfl, rfl, rfl, rfl, rfl, ⟨rfl, rfl⟩, rfl,
    ⟨rfl, rfl⟩, fun _ => rfl, SameHidden.of_schedule (ts := rest) ⟨State.accept_scratch _ _, State.accept_datapath _ _⟩, rfl, rfl,
    rfl⟩

/-- The registers a store to which only sets their own value while BUSY = 0. -/
def isArgument (r : RegName) : Prop := r ∉ [RegName.cmd, .status, .result]

theorem State.writeRegIdle_readReg {r : RegName} (arg : isArgument r) (s : State) (v : Word) (r' : RegName) :
    (s.writeRegIdle v r).readReg r' = if r' = r then v else s.readReg r' := by
  cases r with
  | cmd | status | result => simp [isArgument] at arg
  | argALo | argAHi | argBLo | argBHi | lenLo | lenHi => cases r' <;> rfl

theorem State.writeRegIdle_argument_frame {r : RegName} (arg : isArgument r) (s : State) (v : Word) :
    (s.writeRegIdle v r).pend = s.pend ∧ SameSlots s (s.writeRegIdle v r) ∧ SameMemory s (s.writeRegIdle v r) ∧
      SameHidden s (s.writeRegIdle v r) ∧ (s.writeRegIdle v r).schedule = s.schedule := by
  cases r with
  | cmd | status | result => simp [isArgument] at arg
  | argALo | argAHi | argBLo | argBHi | lenLo | lenHi =>
    exact ⟨rfl, ⟨rfl, rfl⟩, fun _ => rfl, ⟨forall_alg rfl rfl, forall_alg rfl rfl⟩, rfl⟩

theorem step_loadReg {s : State} {off : Nat} {r : RegName} {rest : List Turn} (h : regAt off = some r)
    (hs : s.schedule = .host (.loadReg .word (s.regBase + off)) :: rest) :
    step s = .next { s with hostRead := .reg (s.readReg r), schedule := rest } :=
  calc step s = _ := step_host hs
    _ = _ := hostTurn_loadReg (Nat.lt_trans (regAt_eq_some h).2 (by decide)) { s with schedule := rest } .word
    _ = _ := by rw [State.windowRead_of_regAt h]; cases r <;> rfl

/-- Settles O44: an argument register is only its own value, and a load of any register is `State.readReg`. -/
theorem argumentStoreReadsBack : Obligations.ArgumentStoreReadsBack := by
  refine ⟨fun s off r v rest hr arg hs idle => ?store, fun s off v rest hs h => ?load⟩
  case store =>
    obtain ⟨pend, slots, memory, hidden, schedule⟩ :=
      State.writeRegIdle_argument_frame arg { s with schedule := rest } v
    refine ⟨_, step_storeReg_idle hr hs idle, ?_, fun off' r' hr' other => ?_, pend.trans idle, slots, memory,
      hidden.of_schedule, schedule⟩
    · rw [State.windowRead_of_regAt hr, State.writeRegIdle_readReg arg, if_pos rfl]
    · rw [State.windowRead_of_regAt hr', State.windowRead_of_regAt hr', State.writeRegIdle_readReg arg, if_neg other]
      cases r' <;> rfl
  case load =>
    simp only [List.mem_cons, Prod.mk.injEq, List.not_mem_nil, or_false] at h
    obtain ⟨rfl, rfl⟩ | ⟨rfl, rfl⟩ | ⟨rfl, rfl⟩ | ⟨rfl, rfl⟩ | ⟨rfl, rfl⟩ | ⟨rfl, rfl⟩ | ⟨rfl, rfl⟩ | ⟨rfl, rfl⟩ |
      ⟨rfl, rfl⟩ := h <;> exact step_loadReg rfl hs

/-! ## A store while BUSY = 1 (R224) -/

theorem State.windowWrite_busy {s : State} (busy : s.busy = true) (off : Nat) (v : Word) :
    (off ∈ [0x00, 0x08, 0x0C, 0x10, 0x14, 0x18, 0x1C] → s.windowWrite .word off v = s.recordFault .busyWrite) ∧
      (0x24 ≤ off → s.windowWrite .word off v = s) ∧
      (s.windowWrite .word off v = s ∨ s.windowWrite .word off v = s.recordFault .busyWrite) := by
  refine ⟨fun h => ?_, fun h => State.windowWrite_undefined (.inr (.inr h)) s v, ?_⟩
  · have guarded : ∃ r, regAt off = some r ∧ r.guarded = true := by
      simp only [List.mem_cons, List.not_mem_nil, or_false] at h
      obtain rfl | rfl | rfl | rfl | rfl | rfl | rfl := h <;> exact ⟨_, rfl, rfl⟩
    obtain ⟨r, hr, hg⟩ := guarded
    rw [State.windowWrite_of_regAt hr, State.writeReg, if_pos busy, if_pos hg]
  · obtain e | ⟨-, e⟩ | ⟨idle, -⟩ := s.windowWrite_cases .word off v
    · exact .inl e
    · exact .inr e
    · exact absurd (busy.symm.trans idle) (by decide)

/-- What is left by a store that is discarded, whether or not it is recorded. -/
theorem discarded_frame {s t : State} (h : t = s ∨ t = s.recordFault .busyWrite) :
    SameRegisters s t ∧ t.err = s.err ∧ t.eq = s.eq ∧ t.pend = s.pend ∧ SameSlots s t ∧ SameMemory s t ∧ SameHidden s t ∧
      t.schedule = s.schedule := by
  obtain rfl | rfl := h
  · exact ⟨(Frame.refl t).registers, rfl, rfl, rfl, ⟨rfl, rfl⟩, fun _ => rfl, ⟨fun _ => rfl, fun _ => rfl⟩, rfl⟩
  · exact ⟨(Frame.refl s).registers, rfl, rfl, rfl, ⟨rfl, rfl⟩, fun _ => rfl,
      ⟨State.recordFault_scratch _ _, State.recordFault_datapath _ _⟩, rfl⟩

/-- Settles O45: a store to the window while BUSY = 1 is discarded, and recorded if its register is guarded. -/
theorem storeWhileBusyIsABusyWrite : Obligations.StoreWhileBusyIsABusyWrite := by
  intro s p off v rest pending small aligned hs
  have busy : ({ s with schedule := rest } : State).busy = true := by simp [State.busy, pending]
  obtain ⟨guarded, reserved, either⟩ := State.windowWrite_busy busy off v
  obtain ⟨registers, err, eq, pend, slots, memory, hidden, schedule⟩ := discarded_frame either
  refine ⟨_, (step_host hs).trans (hostTurn_storeReg small { s with schedule := rest } .word v), fun h => ?_, fun h => ?_,
    registers, err, eq, pend, slots, memory, hidden.of_schedule, schedule⟩
  · rw [guarded h]
    exact ⟨rfl, rfl⟩
  · rw [reserved h]
    exact ⟨rfl, rfl⟩

/-! ## STATUS and RESULT (R23 to R26, R30) -/

/-- Every bit of STATUS. -/
theorem State.statusWord_getLsbD (s : State) (k : Nat) : s.statusWord.getLsbD k =
    if k < 4 then s.err.getLsbD k else if k < 8 then false else if k < 9 then s.fault else if k < 12 then false
    else if k < 16 then s.fcause.getLsbD (k - 12) else if k < 31 then false else if k < 32 then s.busy else false := by
  unfold State.statusWord
  change BitVec.getLsbD (w := 1 + 15 + 4 + 3 + 1 + 4 + 4) _ k = _
  simp only [BitVec.getLsbD_append, Nat.sub_sub]
  simp only [BitVec.ofNat_eq_ofNat, BitVec.getLsbD_zero, BitVec.getLsbD_ofBool]
  split_ifs <;> grind

/-- Every bit of RESULT. -/
theorem State.resultWord_getLsbD (s : State) (k : Nat) : s.resultWord.getLsbD k = if k < 1 then s.eq else false := by
  unfold State.resultWord
  change BitVec.getLsbD (w := 31 + 1) _ k = _
  rw [BitVec.getLsbD_append, BitVec.ofNat_eq_ofNat, BitVec.getLsbD_zero, BitVec.getLsbD_ofBool]
  grind

/-- Settles O47: the words' bits, field by field. -/
theorem statusAndResultLayout : Obligations.StatusAndResultLayout := by
  intro s
  refine ⟨fun k hk => ?err, s.statusWord_getLsbD 8, fun k hk => ?fcause, s.statusWord_getLsbD 31, fun k hk => ?reserved,
    s.resultWord_getLsbD 0, fun k hk => ?resultReserved⟩
  case err => rw [s.statusWord_getLsbD, if_pos hk]
  case fcause =>
    rw [s.statusWord_getLsbD, if_neg (by omega), if_neg (by omega), if_neg (by omega), if_neg (by omega), if_pos (by omega),
      Nat.add_sub_cancel_left]
  case reserved =>
    rw [s.statusWord_getLsbD]
    grind
  case resultReserved => rw [s.resultWord_getLsbD, if_neg (by omega)]

/-! ## Buffer memory (R61) -/

/-- The state as a turn finds it, with the later turns left. -/
def State.withSchedule (s : State) (rest : List Turn) : State := { s with schedule := rest }

theorem step_storeByte {s : State} {a : Nat} {b : Byte} {rest : List Turn} (hs : s.schedule = .host (.storeByte a b) :: rest)
    (inside : a < s.memSize) : step s = .next ((s.withSchedule rest).hostStoreByte a b) :=
  (step_host hs).trans (if_pos inside)

theorem step_loadByte {s : State} {a : Nat} {rest : List Turn} (hs : s.schedule = .host (.loadByte a) :: rest)
    (inside : a < s.memSize) : step s = .next ((s.withSchedule rest).hostLoadByte a) :=
  (step_host hs).trans (if_pos inside)

theorem State.hostStoreByte_onlyBytes (s : State) (a : Nat) (b : Byte) : OnlyBytes a 1 s (s.hostStoreByte a b) :=
  fun _ outside => s.mem.read_write_other b (by omega)

theorem State.hostStoreByte_raced_idle {s : State} (idle : s.pend = none) (a : Nat) (b : Byte) :
    (s.hostStoreByte a b).raced = s.raced := by
  simp [State.hostStoreByte, State.busy, idle]

theorem State.mem_hostStoreByte_raced {s : State} (pending : s.pend ≠ none) (a : Nat) (b : Byte) (a' : Nat) :
    a' ∈ (s.hostStoreByte a b).raced ↔ a' = a ∨ a' ∈ s.raced := by
  unfold State.hostStoreByte
  rw [State.busy_eq_true.2 pending]
  by_cases h : a ∈ s.raced
  · rw [if_neg (by simp [h])]
    exact ⟨.inr, fun either => either.elim (· ▸ h) id⟩
  · rw [if_pos ⟨rfl, h⟩, List.mem_cons]

theorem State.inPendingOutput_idle {s : State} (idle : s.pend = none) (a : Nat) : s.inPendingOutput a = false := by
  simp [State.inPendingOutput, State.pendingOutput, idle]

theorem State.hostLoadByte_outside {s : State} {a : Nat} (h : s.inPendingOutput a = false) :
    s.hostLoadByte a = { s with hostRead := .byte (s.mem.read a) } := by
  rw [State.hostLoadByte, h, if_neg (by decide)]

/-- What a load with nothing pending returns, and what it leaves. -/
theorem step_loadByte_idle {s : State} {a : Nat} {rest : List Turn} (hs : s.schedule = .host (.loadByte a) :: rest)
    (inside : a < s.memSize) (idle : s.pend = none) :
    ∃ u, step s = .next u ∧ u.hostRead = .byte (s.mem.read a) ∧ u.mem = s.mem ∧ u.schedule = rest := by
  have outside : (s.withSchedule rest).inPendingOutput a = false := State.inPendingOutput_idle idle a
  exact ⟨_, (step_loadByte hs inside).trans (congrArg _ (State.hostLoadByte_outside outside)), rfl, rfl, rfl⟩

/-- Settles O58: the store is a plain write, which also marks its address while a command is pending. -/
theorem hostByteStoreThenLoad : Obligations.HostByteStoreThenLoad := by
  refine ⟨fun s a b rest hs idle inside => ?idle, fun s a b rest hs => ⟨fun pending inside => ?pending, fun outside => ?outside⟩⟩
  case idle =>
    obtain ⟨u, load, read, mem, schedule⟩ :=
      step_loadByte_idle (s := (s.withSchedule (.host (.loadByte a) :: rest)).hostStoreByte a b) rfl inside idle
    exact ⟨_, u, step_storeByte hs inside, (s.withSchedule _).hostStoreByte_onlyBytes a b,
      State.hostStoreByte_raced_idle (s := s.withSchedule _) idle a b, load,
      read.trans (congrArg HostRead.byte (s.mem.read_write_same a b)), mem, schedule⟩
  case pending =>
    exact ⟨_, step_storeByte hs inside, s.mem.read_write_same a b, (s.withSchedule _).hostStoreByte_onlyBytes a b,
      State.mem_hostStoreByte_raced (s := s.withSchedule _) pending a b, rfl, rfl, ⟨rfl, rfl⟩,
      ⟨rfl, rfl, rfl, rfl, rfl, rfl, rfl⟩, ⟨rfl, rfl⟩, rfl⟩
  case outside => exact (step_host hs).trans (if_neg (Nat.not_lt.2 outside))

/-! ## What the host cannot see (R38) -/

/-- The state with other slots, scratch contexts and datapaths. -/
def State.withHidden (s : State) (x : List (Context .sha256)) (y : List (Context .sha512)) (sx : Context .sha256)
    (sy : Context .sha512) (dx : Datapath .sha256) (dy : Datapath .sha512) : State :=
  { s with slots256 := x, slots512 := y, scratch256 := sx, scratch512 := sy, datapath256 := dx, datapath512 := dy }

section
variable (s : State) (x : List (Context .sha256)) (y : List (Context .sha512)) (sx : Context .sha256) (sy : Context .sha512)
  (dx : Datapath .sha256) (dy : Datapath .sha512)

theorem State.writeReg_withHidden (r : RegName) (v : Word) :
    (s.withHidden x y sx sy dx dy).writeReg r v = (s.writeReg r v).withHidden x y sx sy dx dy := by
  have busy : (s.withHidden x y sx sy dx dy).busy = s.busy := rfl
  rw [State.writeReg, State.writeReg, busy]
  split_ifs
  · rfl
  · rfl
  · cases r <;> rfl

theorem State.windowWrite_withHidden (width : AccessWidth) (off : Nat) (v : Word) :
    (s.withHidden x y sx sy dx dy).windowWrite width off v = (s.windowWrite width off v).withHidden x y sx sy dx dy := by
  unfold State.windowWrite
  split
  · cases regAt off with
    | none => rfl
    | some r => exact s.writeReg_withHidden x y sx sy dx dy r v
  · rfl

theorem State.windowRead_withHidden (width : AccessWidth) (off : Nat) :
    (s.withHidden x y sx sy dx dy).windowRead width off = s.windowRead width off := by
  unfold State.windowRead
  cases regAt off with
  | none => rfl
  | some r => cases r <;> rfl

theorem State.windowOffset_withHidden (addr : Nat) : (s.withHidden x y sx sy dx dy).windowOffset addr = s.windowOffset addr := rfl

/-- A host turn on the other state is the turn on this one, with the hidden state carried along. -/
theorem hostTurn_withHidden {act : HostAction} (plain : ∀ a, act = .loadByte a → s.inPendingOutput a = false) {t : State}
    (turn : hostTurn act s = .next t) :
    hostTurn act (s.withHidden x y sx sy dx dy) = .next (t.withHidden x y sx sy dx dy) := by
  cases act with
  | storeReg width addr v =>
    simp only [hostTurn, State.windowOffset_withHidden] at turn ⊢
    cases off : s.windowOffset addr with
    | none => rw [off] at turn; cases turn
    | some off =>
      rw [off] at turn
      cases turn
      exact congrArg _ (s.windowWrite_withHidden x y sx sy dx dy width _ v)
  | loadReg width addr =>
    simp only [hostTurn, State.windowOffset_withHidden] at turn ⊢
    cases off : s.windowOffset addr with
    | none => rw [off] at turn; cases turn
    | some off =>
      rw [off] at turn
      cases turn
      simp only [State.windowRead_withHidden]
      rfl
  | poll => cases turn; rfl
  | storeByte a b =>
    simp only [hostTurn] at turn
    split at turn
    next inside => cases turn; exact if_pos inside
    next => cases turn
  | loadByte a =>
    simp only [hostTurn] at turn
    split at turn
    next inside =>
      cases turn
      refine (if_pos inside).trans (congrArg _ ?_)
      have outside := plain a rfl
      rw [State.hostLoadByte_outside outside, State.hostLoadByte_outside (s := s.withHidden x y sx sy dx dy) outside]
      rfl
    next => cases turn

end

/-- Settles O51: the turn carries the hidden state along, and none of what is compared is in it. -/
theorem hostLoadsDoNotSeeTheSlots : Obligations.HostLoadsDoNotSeeTheSlots := by
  intro s x y sx sy dx dy act t t' plain turn turn'
  cases (hostTurn_withHidden s x y sx sy dx dy plain turn).symm.trans turn'
  exact ⟨rfl, rfl, rfl, rfl⟩

/-! ## A run without a fault (R225) -/

theorem exec_schedule {i : Instr} {s t : State} (run : exec i s = .next t) : t.schedule = s.schedule :=
  (exec_leaves run).platform.2.2.2

theorem coreTurn_schedule {s t : State} (turn : coreTurn s = .next t) : t.schedule = s.schedule := by
  by_cases idle : s.pend = none
  · simp only [coreTurn, idle] at turn
    cases turn
    rfl
  · obtain ⟨t', turn', -, leaves⟩ := coreTurn_leaves idle
    cases turn'.symm.trans turn
    exact leaves.platform.2.2.2

theorem State.windowWrite_schedule (s : State) (width : AccessWidth) (off : Nat) (v : Word) :
    (s.windowWrite width off v).schedule = s.schedule := by
  obtain e | ⟨-, e⟩ | ⟨-, r, e⟩ := s.windowWrite_cases width off v <;> rw [e]
  · rfl
  · cases r <;> rfl

/-- The turns a host turn leaves are those it found, and after a poll also the core's and the poll again. -/
theorem hostTurn_schedule {act : HostAction} {s t : State} (turn : hostTurn act s = .next t) :
    t.schedule = s.schedule ∨ t.schedule = .core :: .host .poll :: s.schedule := by
  unfold hostTurn at turn
  cases act with
  | storeReg width addr v =>
    dsimp only at turn
    split at turn <;> cases turn
    exact .inl (s.windowWrite_schedule width _ v)
  | loadReg width addr =>
    dsimp only at turn
    split at turn <;> cases turn
    exact .inl rfl
  | poll =>
    cases turn
    dsimp only
    split
    · exact .inr rfl
    · exact .inl rfl
  | storeByte a b =>
    dsimp only at turn
    split at turn <;> cases turn
    exact .inl rfl
  | loadByte a =>
    dsimp only at turn
    split at turn <;> cases turn
    unfold State.hostLoadByte
    split <;> exact .inl rfl

/-- A step schedules no reset. -/
theorem step_reset_notMem {s t : State} (turn : step s = .next t) (noReset : .reset ∉ s.schedule) : .reset ∉ t.schedule := by
  match hs : s.schedule with
  | [] =>
    rw [CoreNext.step_eq (.inr ⟨hs, rfl⟩)] at turn
    rw [coreTurn_schedule turn]
    exact List.not_mem_nil
  | .core :: rest =>
    rw [CoreNext.step_eq (.inl hs)] at turn
    rw [coreTurn_schedule turn]
    exact fun later => noReset (hs ▸ List.mem_cons_of_mem _ later)
  | .host act :: rest =>
    rw [step_host hs] at turn
    rw [hs] at noReset
    obtain e | e := hostTurn_schedule turn <;> rw [e] <;> simpa using noReset
  | .reset :: rest => exact absurd (hs ▸ List.mem_cons_self) noReset

/-- Settles O50: by induction on the run, FAULT would have stayed set. -/
theorem cleanRunNeverFaulted : Obligations.CleanRunNeverFaulted := by
  rintro n s t ⟨run, clean⟩ noReset
  induction run with
  | done => exact clean
  | @more n s t u first rest ih =>
    have later := ih clean (step_reset_notMem first noReset)
    refine Bool.eq_false_iff.2 fun fault => Bool.false_ne_true (later.symm.trans ?_)
    exact step_fault_stays first (fun _ hs => noReset (hs ▸ List.mem_cons_self)) fault

end Sys2Proof.Machine
end

section
/-! The assembler's lines, O52 (spec/30_encoding.md R85), and reset, O56 and O57 (spec/70_reset_and_hazards.md R250, R253). -/

namespace Sys2Proof.Machine

/-! ## Runs of any length -/

/-- Some number of steps leads from `s` to `t`. -/
def Reaches (s t : State) : Prop := ∃ n, Run n s t

theorem Reaches.refl (s : State) : Reaches s s := ⟨0, .done s⟩

theorem Reaches.step {s t u : State} (first : Machine.step s = .next t) (rest : Reaches t u) : Reaches s u :=
  rest.elim fun n run => ⟨n + 1, .more first run⟩

theorem Reaches.trans {s t u : State} (before : Reaches s t) (after : Reaches t u) : Reaches s u := by
  obtain ⟨n, run⟩ := before
  induction run with
  | done => exact after
  | more first _ ih => exact .step first (ih after)

/-! ## A line's stores -/

/-- The state with an operand's two words in their registers, if the line uses the operand. -/
def State.loadPair (lo hi : RegName) (x : Option DWord) (s : State) : State :=
  match x with
  | none => s
  | some x => (s.writeRegIdle (x.extractLsb' 0 32) lo).writeRegIdle (x.extractLsb' 32 32) hi

theorem State.writeRegIdle_withSchedule {r : RegName} (arg : isArgument r) (s : State) (v : Word) (ts : List Turn) :
    (s.withSchedule ts).writeRegIdle v r = (s.writeRegIdle v r).withSchedule ts := by
  cases r with
  | cmd | status | result => simp [isArgument] at arg
  | argALo | argAHi | argBLo | argBHi | lenLo | lenHi => rfl

theorem State.writeRegIdle_argument {r : RegName} (arg : isArgument r) (s : State) (v : Word) :
    (s.writeRegIdle v r).pend = s.pend ∧ (s.writeRegIdle v r).regBase = s.regBase := by
  cases r with
  | cmd | status | result => simp [isArgument] at arg
  | argALo | argAHi | argBLo | argBHi | lenLo | lenHi => exact ⟨rfl, rfl⟩

/-- One store of a line, to the register at its offset. -/
theorem step_storeAt {s : State} (idle : s.pend = none) {off : Nat} {r : RegName} (h : regAt off = some r) (v : Word)
    (rest : List Turn) :
    step (s.withSchedule (storeAt s.regBase off v :: rest)) = .next ((s.withSchedule rest).writeRegIdle v r) :=
  step_storeReg_idle (s := s.withSchedule (storeAt s.regBase off v :: rest)) h rfl idle

theorem step_storeAt_argument {s : State} (idle : s.pend = none) {off : Nat} {r : RegName} (h : regAt off = some r)
    (arg : isArgument r) (v : Word) (rest : List Turn) :
    step (s.withSchedule (storeAt s.regBase off v :: rest)) = .next ((s.writeRegIdle v r).withSchedule rest) :=
  (step_storeAt idle h v rest).trans (congrArg Host.Outcome.next (s.writeRegIdle_withSchedule arg v rest))

theorem State.loadPair_frame {lo hi : RegName} (argLo : isArgument lo) (argHi : isArgument hi) (x : Option DWord) (s : State) :
    (s.loadPair lo hi x).pend = s.pend ∧ (s.loadPair lo hi x).regBase = s.regBase := by
  cases x with
  | none => exact ⟨rfl, rfl⟩
  | some x =>
    obtain ⟨pend, base⟩ := s.writeRegIdle_argument argLo (x.extractLsb' 0 32)
    obtain ⟨pend', base'⟩ := (s.writeRegIdle (x.extractLsb' 0 32) lo).writeRegIdle_argument argHi (x.extractLsb' 32 32)
    exact ⟨pend'.trans pend, base'.trans base⟩

theorem reaches_storePair {s : State} (idle : s.pend = none) {off : Nat} {lo hi : RegName} (hlo : regAt off = some lo)
    (hhi : regAt (off + 4) = some hi) (argLo : isArgument lo) (argHi : isArgument hi) (x : Option DWord) (rest : List Turn) :
    Reaches (s.withSchedule (storePair s.regBase off x ++ rest)) ((s.loadPair lo hi x).withSchedule rest) := by
  cases x with
  | none => exact .refl _
  | some x =>
    obtain ⟨pend, base⟩ := s.writeRegIdle_argument argLo (x.extractLsb' 0 32)
    refine .step (step_storeAt_argument idle hlo argLo _ _) (.step ?_ (.refl _))
    rw [← base]
    exact step_storeAt_argument (pend.trans idle) hhi argHi _ rest

theorem AsmLine.loaded_eq (line : AsmLine) (s : State) : line.loaded s =
    ((s.loadPair .argALo .argAHi line.operandA).loadPair .argBLo .argBHi line.operandB).loadPair .lenLo .lenHi
      line.operandLen := by
  unfold AsmLine.loaded
  cases line.operandA <;> cases line.operandB <;> cases line.operandLen <;> rfl

/-- All the stores of operands of a line: they are in the registers, and still nothing is pending. -/
theorem AsmLine.reaches_loaded (line : AsmLine) {s : State} (idle : s.pend = none) (rest : List Turn) :
    (line.loaded s).pend = none ∧ (line.loaded s).regBase = s.regBase ∧
      Reaches (s.withSchedule (storePair s.regBase 0x08 line.operandA ++ storePair s.regBase 0x10 line.operandB ++
        storePair s.regBase 0x18 line.operandLen ++ rest)) ((line.loaded s).withSchedule rest) := by
  have isArg : isArgument .argALo ∧ isArgument .argAHi ∧ isArgument .argBLo ∧ isArgument .argBHi ∧ isArgument .lenLo ∧
    isArgument .lenHi := by simp [isArgument]
  obtain ⟨aLo, aHi, bLo, bHi, lLo, lHi⟩ := isArg
  let s1 := s.loadPair .argALo .argAHi line.operandA
  let s2 := s1.loadPair .argBLo .argBHi line.operandB
  obtain ⟨pend1, base1⟩ := s.loadPair_frame aLo aHi line.operandA
  obtain ⟨pend2, base2⟩ := s1.loadPair_frame bLo bHi line.operandB
  obtain ⟨pend3, base3⟩ := s2.loadPair_frame lLo lHi line.operandLen
  have idle1 : s1.pend = none := pend1.trans idle
  have idle2 : s2.pend = none := pend2.trans idle1
  have base2' : s2.regBase = s.regBase := base2.trans base1
  rw [line.loaded_eq]
  refine ⟨pend3.trans idle2, base3.trans base2', ?_⟩
  rw [List.append_assoc, List.append_assoc]
  refine .trans (reaches_storePair idle rfl rfl aLo aHi line.operandA _) ?_
  refine .trans (base1 ▸ reaches_storePair idle1 rfl rfl bLo bHi line.operandB _) ?_
  exact base2' ▸ reaches_storePair idle2 rfl rfl lLo lHi line.operandLen _

/-! ## A line's command -/

theorem ctxField_lt (ctx : Option (Fin 16)) : ctxField ctx < 16 := by
  cases ctx with
  | none => decide
  | some n => exact n.isLt

theorem AsmLine.instr_wellFormed (line : AsmLine) : line.instr.WellFormed := by
  cases line with
  | init alg ctx => exact (wf_init ..).2 (ctxField_lt ctx)
  | update alg ctx a len => exact (wf_update ..).2 (ctxField_lt ctx)
  | final alg ctx b => exact (wf_final ..).2 (ctxField_lt ctx)
  | oneshot alg a len b => exact wf_oneshot ..
  | tohex alg a b => exact wf_tohex ..
  | ctcmp alg a b => exact wf_ctcmp ..

theorem State.statusWord_withSchedule (s : State) (ts : List Turn) : (s.withSchedule ts).statusWord = s.statusWord := rfl

theorem State.busy_withSchedule (s : State) (ts : List Turn) : (s.withSchedule ts).busy = s.busy := rfl

theorem step_poll {s : State} {rest : List Turn} (hs : s.schedule = .host .poll :: rest) : step s = .next { s with
    hostRead := .reg s.statusWord
    schedule := if s.busy then .core :: .host .poll :: rest else rest } := by
  rw [step_host hs, ← s.statusWord_withSchedule rest, ← s.busy_withSchedule rest]
  rfl

theorem step_poll_busy {s : State} {rest : List Turn} (hs : s.schedule = .host .poll :: rest) (busy : s.busy = true) :
    step s = .next { s with hostRead := .reg s.statusWord, schedule := .core :: .host .poll :: rest } := by
  rw [step_poll hs, if_pos busy]

theorem step_poll_idle {s : State} {rest : List Turn} (hs : s.schedule = .host .poll :: rest) (idle : s.pend = none) :
    step s = .next { s with hostRead := .reg s.statusWord, schedule := rest } := by
  rw [step_poll hs, if_neg (by simp [State.busy, idle])]

/-- The store of an instruction's word to CMD with the poll behind it: the poll finds BUSY = 1 and gives the core its turn, and the
poll after it reads STATUS of the state the instruction left. -/
theorem reaches_command {s : State} (idle : s.pend = none) {i : Instr} (wf : i.WellFormed) :
    ∃ (w : Word) (u : State),
      exec i { s.accept (encode i) with hostRead := .reg w, schedule := [.host .poll] } = .next u ∧
      Reaches (s.withSchedule [storeAt s.regBase 0x00 (encode i), .host .poll])
        { u with hostRead := .reg u.statusWord, schedule := [] } := by
  let accepted := s.accept (encode i)
  let polled : State := { accepted with hostRead := .reg accepted.statusWord, schedule := [.host .poll] }
  obtain ⟨u, run, code, ended, -⟩ := exec_ends i polled
  obtain ⟨-, done⟩ := ended
  have store : step (s.withSchedule [storeAt s.regBase 0x00 (encode i), .host .poll]) =
      .next (accepted.withSchedule [.host .poll]) := step_storeAt idle (r := .cmd) rfl (encode i) [.host .poll]
  have poll : step (accepted.withSchedule [.host .poll]) = .next (polled.withSchedule [.core, .host .poll]) :=
    step_poll_busy rfl rfl
  have core : step (polled.withSchedule [.core, .host .poll]) = .next u :=
    ((CoreNext.step_eq (s := polled.withSchedule _) (.inl rfl)).trans
      (coreTurn_of_decode rfl (decodeOfEncodeIsTheInstruction i wf))).trans run
  exact ⟨_, u, run, .step store (.step poll (.step core (.step (step_poll_idle (exec_schedule run) done) (.refl _))))⟩

/-- Settles O52: the operands' stores, then the command. -/
theorem assemblerLineRunsItsCommand : Obligations.AssemblerLineRunsItsCommand := by
  intro line s idle hs
  obtain ⟨idle', base, stores⟩ := line.reaches_loaded idle [storeAt s.regBase 0x00 (encode line.instr), .host .poll]
  obtain ⟨w, u, run, command⟩ := reaches_command idle' line.instr_wellFormed
  rw [base] at command
  have start : s = s.withSchedule (line.expand s.regBase) := by rw [← hs]; rfl
  obtain ⟨n, whole⟩ : Reaches s { u with hostRead := .reg u.statusWord, schedule := [] } := by
    rw [start]
    exact stores.trans command
  exact ⟨n, w, u, run, whole⟩

/-! ## Reset -/

theorem State.applyReset_readReg (s : State) (r : RegName) : s.applyReset.readReg r = 0 := by
  cases r with
  | status =>
    change BitVec.ofBool false ++ (0 : BitVec 15) ++ (0 : BitVec 4) ++ (0 : BitVec 3) ++ BitVec.ofBool false ++ (0 : BitVec 4) ++
      (0 : BitVec 4) = (0 : BitVec 32)
    decide
  | result =>
    change (0 : BitVec 31) ++ BitVec.ofBool false = (0 : BitVec 32)
    decide
  | cmd | argALo | argAHi | argBLo | argBHi | lenLo | lenHi => rfl

theorem State.applyReset_slots (s : State) (alg : Alg) :
    s.applyReset.slots alg = List.replicate (s.nCtx alg) (Context.zero alg) := by
  cases alg <;> rfl

theorem State.applyReset_cleared (s : State) (alg : Alg) :
    s.applyReset.scratch alg = Context.zero alg ∧ s.applyReset.datapath alg = Datapath.zero alg := by
  cases alg <;> exact ⟨rfl, rfl⟩

theorem State.memAfterReset_idle {s : State} (idle : s.pend = none) : s.memAfterReset = s.mem := by
  simp [State.memAfterReset, State.pendingOutput, idle]

/-- Settles O56: field by field. -/
theorem resetClearsAllButMemory : Obligations.ResetClearsAllButMemory := by
  intro s rest hs
  refine ⟨_, step_reset hs, State.applyReset_readReg _, rfl, fun alg => ⟨?_, fun c hc => ?_⟩, State.applyReset_cleared _, rfl, rfl,
    rfl, fun idle => State.memAfterReset_idle (s := s.withSchedule rest) idle⟩
  · rw [State.nCtx, State.applyReset_slots, List.length_replicate]
    cases alg <;> rfl
  · rw [State.applyReset_slots] at hc
    exact List.eq_of_mem_replicate hc

/-- Only the bytes of the pending command's output range are freed. -/
theorem State.read_memAfterReset {s : State} {a : Nat}
    (outside : ∀ addr n, s.pendingOutput = some (addr, n) → ¬(addr ≤ a ∧ a < addr + n)) :
    s.memAfterReset.read a = s.mem.read a := by
  unfold State.memAfterReset
  split
  next => rfl
  next addr n out =>
    refine Memory.read_writeBytes_outside _ _ _ ?_
    rw [List.length_map, List.length_range]
    exact outside addr n out

/-- Settles O57. -/
theorem abandonedCommandTouchesOnlyItsOutputRange : Obligations.AbandonedCommandTouchesOnlyItsOutputRange := by
  intro s rest a hs outside
  exact ⟨_, step_reset hs, State.read_memAfterReset (s := s.withSchedule rest) outside⟩

end Sys2Proof.Machine
end

section
/-! A host load of a byte the pending command is about to write, O55 (spec/70_reset_and_hazards.md R258): buffer memory right after
the command is over is `finalMemory`, of the state the load finds and of every state on the way. -/

namespace Sys2Proof.Machine

variable {alg : Alg}

/-! ## What buffer memory after the command depends on -/

/-- Two states agree on all that bears on buffer memory after the pending command. -/
structure SamePending (s s' : State) : Prop where
  pend : s.pend = s'.pend
  mem : s.mem = s'.mem
  memSize : s.memSize = s'.memSize
  raced : s.raced = s'.raced
  draws : s.draws = s'.draws
  slots : ∀ alg, s.slots alg = s'.slots alg

theorem SamePending.refl (s : State) : SamePending s s := ⟨rfl, rfl, rfl, rfl, rfl, fun _ => rfl⟩

theorem SamePending.withSchedule (s : State) (ts : List Turn) : SamePending (s.withSchedule ts) s :=
  ⟨rfl, rfl, rfl, rfl, rfl, forall_alg rfl rfl⟩

section
variable {s s' : State} (h : SamePending s s')
include h

theorem SamePending.hostStoreByte (a : Nat) (b : Byte) : SamePending (s.hostStoreByte a b) (s'.hostStoreByte a b) where
  pend := h.pend
  mem := congrArg (·.write a b) h.mem
  memSize := h.memSize
  raced := by
    unfold State.hostStoreByte State.busy
    rw [h.pend, h.raced]
  draws := h.draws
  slots := forall_alg (h.slots .sha256) (h.slots .sha512)

theorem SamePending.memAfterReset : s.memAfterReset = s'.memAfterReset := by
  have out : s.pendingOutput = s'.pendingOutput := by
    unfold State.pendingOutput
    rw [h.pend, h.memSize]
  unfold State.memAfterReset
  rw [out, h.mem, h.draws]

theorem SamePending.sameView {p : Latch} (pending : s.pend = some p) (named : Option (Alg × Nat)) :
    SameView False named s.begin s'.begin where
  current := by
    have pending' : s'.pend = some p := h.pend.symm.trans pending
    rw [State.begin_current, State.begin_current, State.current, State.current, pending, pending']
    rfl
  mem := h.mem
  memSize := h.memSize
  raced := h.raced
  draws := fun _ => h.draws
  nCtx alg := by rw [State.begin_nCtx, State.begin_nCtx, State.nCtx, State.nCtx, h.slots]
  slot alg j _ := by rw [State.begin_slots, State.begin_slots, h.slots]
  accesses := rfl
  eq := False.elim

theorem SamePending.memAfterCore : s.memAfterCore = s'.memAfterCore := by
  unfold State.memAfterCore
  cases pending : s.pend with
  | none =>
    have pending' : s'.pend = none := h.pend.symm.trans pending
    simp only [coreTurn, pending, pending']
    exact h.mem
  | some p =>
    have pending' : s'.pend = some p := h.pend.symm.trans pending
    cases hd : decode p.word with
    | error e =>
      rw [coreTurn_of_illegal pending hd, coreTurn_of_illegal pending' hd]
      exact h.mem
    | ok i =>
      obtain ⟨t, run, -⟩ := exec_ends i s
      obtain ⟨t', run', -⟩ := exec_ends i s'
      rw [coreTurn_of_decode pending hd, coreTurn_of_decode pending' hd, run, run']
      exact (exec_sameResult (h.sameView pending _) run run').mem

end

/-- By induction on the turns to come, along `finalMemory`'s own recursion. -/
theorem SamePending.finalMemory (ts : List Turn) {s s' : State} (h : SamePending s s') :
    finalMemory ts s = finalMemory ts s' := by
  induction ts generalizing s s' with
  | nil => exact h.memAfterCore
  | cons turn ts ih =>
    cases turn with
    | core => exact h.memAfterCore
    | reset => exact h.memAfterReset
    | host act =>
      cases act with
      | poll => exact h.memAfterCore
      | storeByte a b => exact ih (h.hostStoreByte a b)
      | loadByte | storeReg | loadReg => exact ih h

/-! ## Each step until the command is over -/

/-- A step from a state with a command pending: the command is over and buffer memory is `finalMemory`, or it is still pending and
`finalMemory` is what it was. -/
def TowardsFinal (s t : State) : Prop :=
  (t.pend = none ∧ t.mem = finalMemory s.schedule s) ∨
    (t.pend ≠ none ∧ finalMemory t.schedule t = finalMemory s.schedule s)

theorem coreTurn_over {s t : State} (pending : s.pend ≠ none) (turn : coreTurn s = .next t) :
    t.pend = none ∧ t.mem = s.memAfterCore := by
  obtain ⟨t', turn', ⟨code, ⟨-, idle⟩, -⟩, -⟩ := coreTurn_leaves pending
  cases turn'.symm.trans turn
  exact ⟨idle, by rw [State.memAfterCore, turn]⟩

theorem CoreNext.towardsFinal {s t : State} {rest : List Turn} (next : CoreNext s rest) (pending : s.pend ≠ none)
    (turn : step s = .next t) : TowardsFinal s t := by
  rw [next.step_eq] at turn
  obtain ⟨idle, mem⟩ := coreTurn_over (s := s.withSchedule rest) pending turn
  refine .inl ⟨idle, (mem.trans (SamePending.withSchedule s rest).memAfterCore).trans ?_⟩
  obtain hs | ⟨hs, -⟩ := next <;> rw [hs] <;> rfl

theorem State.hostLoadByte_samePending (s : State) (a : Nat) : SamePending (s.hostLoadByte a) s := by
  unfold State.hostLoadByte
  split <;> exact ⟨rfl, rfl, rfl, rfl, rfl, forall_alg rfl rfl⟩

theorem State.hostLoadByte_frame (s : State) (a : Nat) :
    SameMemory s (s.hostLoadByte a) ∧ (s.hostLoadByte a).pend = s.pend ∧ SameSlots s (s.hostLoadByte a) ∧
      SameRegisters s (s.hostLoadByte a) ∧ (s.hostLoadByte a).schedule = s.schedule := by
  unfold State.hostLoadByte
  split <;> exact ⟨fun _ => rfl, rfl, ⟨rfl, rfl⟩, ⟨rfl, rfl, rfl, rfl, rfl, rfl, rfl⟩, rfl⟩

theorem State.windowWrite_samePending {s : State} (busy : s.busy = true) (width : AccessWidth) (off : Nat) (v : Word) :
    SamePending (s.windowWrite width off v) s := by
  obtain e | ⟨-, e⟩ | ⟨idle, -⟩ := s.windowWrite_cases width off v
  · rw [e]
    exact .refl s
  · rw [e]
    exact ⟨rfl, rfl, rfl, rfl, rfl, forall_alg rfl rfl⟩
  · exact absurd (busy.symm.trans idle) (by decide)

/-- A host turn leaves the command pending, and buffer memory after it what it was. -/
theorem hostTurn_finalMemory {act : HostAction} {s t : State} (pending : s.pend ≠ none) (turn : hostTurn act s = .next t) :
    t.pend ≠ none ∧ finalMemory t.schedule t = finalMemory (.host act :: s.schedule) s := by
  have busy : s.busy = true := State.busy_eq_true.2 pending
  have same : ∀ {t : State}, SamePending t s → t.schedule = s.schedule →
      t.pend ≠ none ∧ finalMemory t.schedule t = finalMemory s.schedule s := fun h hs =>
    ⟨h.pend ▸ pending, hs ▸ h.finalMemory _⟩
  unfold hostTurn at turn
  cases act with
  | storeReg width addr v =>
    dsimp only at turn
    split at turn <;> cases turn
    exact same (State.windowWrite_samePending busy width _ v) (s.windowWrite_schedule width _ v)
  | loadReg width addr =>
    dsimp only at turn
    split at turn <;> cases turn
    exact same ⟨rfl, rfl, rfl, rfl, rfl, forall_alg rfl rfl⟩ rfl
  | poll =>
    cases turn
    rw [if_pos busy]
    exact ⟨pending, SamePending.memAfterCore ⟨rfl, rfl, rfl, rfl, rfl, forall_alg rfl rfl⟩⟩
  | storeByte a b =>
    dsimp only at turn
    split at turn <;> cases turn
    exact ⟨pending, rfl⟩
  | loadByte a =>
    obtain ⟨-, -, -, -, schedule⟩ := s.hostLoadByte_frame a
    dsimp only at turn
    split at turn <;> cases turn
    exact same (s.hostLoadByte_samePending a) schedule

theorem step_towardsFinal {s t : State} (pending : s.pend ≠ none) (turn : step s = .next t) : TowardsFinal s t := by
  match hs : s.schedule with
  | [] => exact CoreNext.towardsFinal (.inr ⟨hs, rfl⟩) pending turn
  | .core :: rest => exact CoreNext.towardsFinal (.inl hs) pending turn
  | .host act :: rest =>
    rw [step_host hs] at turn
    obtain ⟨still, final⟩ := hostTurn_finalMemory (s := s.withSchedule rest) pending turn
    refine .inr ⟨still, final.trans ?_⟩
    rw [hs]
    exact (SamePending.withSchedule s rest).finalMemory (.host act :: rest)
  | .reset :: rest =>
    rw [step_reset hs] at turn
    cases turn
    refine .inl ⟨rfl, ?_⟩
    rw [hs]
    exact (SamePending.withSchedule s rest).memAfterReset

/-- Buffer memory when the command is over. -/
theorem CommandOver.mem {s u : State} (h : CommandOver s u) : u.mem = finalMemory s.schedule s := by
  induction h with
  | now pending first ended =>
    obtain ⟨-, mem⟩ | ⟨still, -⟩ := step_towardsFinal pending first
    · exact mem
    · exact absurd ended still
  | later pending first still _ ih =>
    obtain ⟨idle, -⟩ | ⟨-, final⟩ := step_towardsFinal pending first
    · exact absurd idle still
    · exact ih.trans final

/-! ## The load -/

/-- A byte that is about to be written is loaded as it stands, or as `finalMemory` has it. -/
theorem State.hostLoadByte_inside {s : State} {a : Nat} (inside : s.inPendingOutput a = true) :
    (s.hostLoadByte a).hostRead = .byte (s.mem.read a) ∨
      (s.hostLoadByte a).hostRead = .byte ((finalMemory s.schedule s).read a) := by
  rw [State.hostLoadByte, if_pos inside, State.racedLoad]
  split
  · exact .inr rfl
  · exact .inl rfl

/-- Settles O55: the load chooses between the byte and `finalMemory`, and that is the memory the command leaves. -/
theorem racedLoadReturnsOldOrFinalByte : Obligations.RacedLoadReturnsOldOrFinalByte := by
  intro s a rest hs inside
  let found := s.withSchedule rest
  obtain ⟨memory, pend, slots, registers, schedule⟩ := found.hostLoadByte_frame a
  refine ⟨_, step_loadByte hs inside, memory, pend, slots, registers, fun outside => ?_, fun u output ended => ?_⟩
  · rw [State.hostLoadByte_outside (s := found) outside]
    rfl
  · have mem : u.mem = finalMemory found.schedule found := by
      rw [ended.mem, schedule]
      exact (found.hostLoadByte_samePending a).finalMemory _
    rw [mem]
    exact State.hostLoadByte_inside (s := found) output

end Sys2Proof.Machine
end
